-- ==== Sys2Proof/Word.lean ====
section
/-! DEFINITION. The words of the decoder (00_scope.md R6, R8) and the byte values of the characters the protocol names
(30_encoding.md R53). -/

namespace Sys2Proof

/-- One input byte (R6, R54). -/
abbrev Byte := BitVec 8

/-- The value of one hex digit (R111). -/
abbrev Nibble := BitVec 4

/-- The spec's u16: `numParam`, a pixel index, a pixel count (R6). -/
abbrev U16 := BitVec 16

/-- The spec's u32: `colorParam`, `latchTime`, a clock value (R6). -/
abbrev U32 := BitVec 32

/-- `'I'`: INIT, and the abort while a command is pending (R53). -/
abbrev byteI : Byte := 0x49#8
/-- `'V'`: VERSION (R53). -/
abbrev byteV : Byte := 0x56#8
/-- `'L'`: LATCH_FRAME (R53). -/
abbrev byteL : Byte := 0x4C#8
/-- `'S'`: SHADE (R53). -/
abbrev byteS : Byte := 0x53#8
/-- `'P'`: PIXEL (R53). -/
abbrev byteP : Byte := 0x50#8
/-- `'W'`: RAW_FRAME (R53). -/
abbrev byteW : Byte := 0x57#8

end Sys2Proof
end

