-- ==== Sys2Proof/Syntax.lean ====
section
/-! DEFINITION. The instructions: one constructor per row of spec/opcode_table.json (30_encoding.md R56, R57, R58, R67), and
the decode modes that select the rows (R55, R67). -/

namespace Sys2Proof

/-- The rows of the opcode table. The first fifteen are byte classes; the last thirteen (mode `PARAM_STATE`) name the effect
a digit byte has in one control state, and carry that byte (R67; log 13). The digit classes carry the nibble the table's
`nibble` field computes; the catch-all rows carry their byte. -/
inductive Instr where
  /-- INIT_A (R81) -/
  | initA
  /-- VERSION_A (R82) -/
  | versionA
  /-- IGNORE_A (R83) -/
  | ignoreA (b : Byte)
  /-- INIT_B (R89) -/
  | initB
  /-- VERSION_B (R90) -/
  | versionB
  /-- PIXEL (R91) -/
  | pixel
  /-- LATCH_FRAME (R92) -/
  | latchFrame
  /-- SHADE (R93) -/
  | shade
  /-- RAW_FRAME (R95) -/
  | rawFrame
  /-- UNRECOGNIZED_B (R94) -/
  | unrecognizedB (b : Byte)
  /-- ABORT (R72) -/
  | abort
  /-- DIGIT_DEC (R58, R111) -/
  | digitDec (n : Nibble)
  /-- DIGIT_UC (R58, R111) -/
  | digitUc (n : Nibble)
  /-- DIGIT_LC (R58, R111) -/
  | digitLc (n : Nibble)
  /-- DIGIT_NONHEX (R58, R111) -/
  | digitNonhex (b : Byte)
  /-- LENGTH_DIGIT_A (R84) -/
  | lengthDigitA (b : Byte)
  /-- COMPLETE_INIT_A (R85) -/
  | completeInitA (b : Byte)
  /-- DIGIT_B_NUM (R96) -/
  | digitBNum (b : Byte)
  /-- COMPLETE_NUM_B (R97) -/
  | completeNumB (b : Byte)
  /-- COMPLETE_REINIT_B (R98) -/
  | completeReinitB (b : Byte)
  /-- ENTER_COLOR (R99) -/
  | enterColor (b : Byte)
  /-- COMPLETE_RAW_FRAME (R101) -/
  | completeRawFrame (b : Byte)
  /-- COMPLETE_UNKNOWN (R102) -/
  | completeUnknown (b : Byte)
  /-- PIXEL_GUARD_LATE (R100) -/
  | pixelGuardLate (b : Byte)
  /-- DIGIT_B_COLOR (R96) -/
  | digitBColor (b : Byte)
  /-- COMPLETE_COLOR_B (R103) -/
  | completeColorB (b : Byte)
  /-- COMPLETE_PIXEL (R104) -/
  | completePixel (b : Byte)
  /-- COMPLETE_SHADE (R105) -/
  | completeShade (b : Byte)
deriving DecidableEq, Repr

/-- The control states the `PARAM_STATE` rows of the table name in `fields.state`, one for each row (R67). -/
inductive StateSlot where
  /-- `LengthA(k)`, k in 0..2 -/
  | lengthA
  /-- `LengthA(3)` -/
  | lengthALast
  /-- `NumB(c,k)`, k in 0..2 -/
  | numB
  /-- `NumB(c,3)` -/
  | numBLast
  /-- `NumB('I',3)`, the completed `numParam` at most the pixel count -/
  | reinit
  /-- `NumB('S',3)` or `NumB('P',3)`, the completed `numParam` at most the pixel count -/
  | color
  /-- `NumB('W',3)`, the completed `numParam` at most the pixel count -/
  | raw
  /-- `NumB(c,3)` for any other `c`, the completed `numParam` at most the pixel count -/
  | unknown
  /-- `ColorB('P',0)`, only with the late guard -/
  | lateGuard
  /-- `ColorB(c,k)`, k in 0..4 -/
  | colorB
  /-- `ColorB(c,5)` -/
  | colorBLast
  /-- `ColorB('P',5)` -/
  | pixel
  /-- `ColorB('S',5)` -/
  | shade
deriving DecidableEq, Repr

/-- The modes of the table: the three that select how a feed step decodes its byte (R55), and `PARAM_STATE` with the control
state its row names (R67). -/
inductive Mode where
  | topA
  | topB
  | param
  | paramState (slot : StateSlot)
deriving DecidableEq, Repr

end Sys2Proof
end

