-- ==== Sys2Proof/WellFormed.lean ====
section
/-! DEFINITION. Which operands the encoding admits: the bytes each row of the table covers (30_encoding.md R56, R57, R58,
R67). -/

namespace Sys2Proof

/-- `'0'..'9'` (R58). -/
abbrev isDecByte (b : Byte) : Bool := 0x30#8 ≤ b && b ≤ 0x39#8

/-- `'A'..'F'` (R58). -/
abbrev isUcByte (b : Byte) : Bool := 0x41#8 ≤ b && b ≤ 0x46#8

/-- `'a'..'f'` (R58). -/
abbrev isLcByte (b : Byte) : Bool := 0x61#8 ≤ b && b ≤ 0x66#8

/-- The bytes with a row of their own in `TOP_A` (R56). -/
abbrev isCommandA (b : Byte) : Bool := b == byteI || b == byteV

/-- The bytes with a row of their own in `TOP_B` (R57). -/
abbrev isCommandB (b : Byte) : Bool :=
  b == byteI || b == byteV || b == byteP || b == byteL || b == byteS || b == byteW

/-- The operands each row admits: a catch-all row takes no byte that an earlier row of its mode takes, a digit row's nibble
lies in its range, and an effect row takes every byte but `'I'` (`except: 0x49`, R67). -/
def Instr.wf : Instr → Bool
  | .initA => true
  | .versionA => true
  | .ignoreA b => !isCommandA b
  | .initB => true
  | .versionB => true
  | .pixel => true
  | .latchFrame => true
  | .shade => true
  | .rawFrame => true
  | .unrecognizedB b => !isCommandB b
  | .abort => true
  | .digitDec n => n ≤ 9#4
  | .digitUc n => 10#4 ≤ n
  | .digitLc n => 10#4 ≤ n
  | .digitNonhex b => !(b == byteI || isDecByte b || isUcByte b || isLcByte b)
  | .lengthDigitA b => b != byteI
  | .completeInitA b => b != byteI
  | .digitBNum b => b != byteI
  | .completeNumB b => b != byteI
  | .completeReinitB b => b != byteI
  | .enterColor b => b != byteI
  | .completeRawFrame b => b != byteI
  | .completeUnknown b => b != byteI
  | .pixelGuardLate b => b != byteI
  | .digitBColor b => b != byteI
  | .completeColorB b => b != byteI
  | .completePixel b => b != byteI
  | .completeShade b => b != byteI

end Sys2Proof
end

