-- ==== Sys2Proof/Decode.lean ====
section
/-! DEFINITION. Decoding a byte in its mode (30_encoding.md R54 to R59, R67), the opcode table as data, the encoder, and the
host's `decodeTableWord`. -/

namespace Sys2Proof

/-- Why a decode gives no instruction. No byte is illegal in any mode (R63), so the one reason is that there is no byte. -/
inductive DecodeError where
  /-- No byte has arrived. -/
  | noByte
deriving DecidableEq, Repr

/-- The nibble a digit row's table entry computes, `b - base` (R58). -/
def digitNibble (b base : Byte) : Nibble := (b - base).setWidth 4

/-- Mode `TOP_A` (R56). -/
def decodeTopA (b : Byte) : Instr :=
  if b = byteI then .initA
  else if b = byteV then .versionA
  else .ignoreA b

/-- Mode `TOP_B` (R57). -/
def decodeTopB (b : Byte) : Instr :=
  if b = byteI then .initB
  else if b = byteV then .versionB
  else if b = byteP then .pixel
  else if b = byteL then .latchFrame
  else if b = byteS then .shade
  else if b = byteW then .rawFrame
  else .unrecognizedB b

/-- Mode `PARAM` (R58): `'I'` aborts, every other byte is a digit. -/
def decodeParam (b : Byte) : Instr :=
  if b = byteI then .abort
  else if isDecByte b then .digitDec (digitNibble b 0x30#8)
  else if isUcByte b then .digitUc (digitNibble b 0x37#8)
  else if isLcByte b then .digitLc (digitNibble b 0x57#8)
  else .digitNonhex b

/-- The effect row of a control state, for a digit byte `b` (R67). -/
def effectRow (slot : StateSlot) (b : Byte) : Instr :=
  match slot with
  | .lengthA => .lengthDigitA b
  | .lengthALast => .completeInitA b
  | .numB => .digitBNum b
  | .numBLast => .completeNumB b
  | .reinit => .completeReinitB b
  | .color => .enterColor b
  | .raw => .completeRawFrame b
  | .unknown => .completeUnknown b
  | .lateGuard => .pixelGuardLate b
  | .colorB => .digitBColor b
  | .colorBLast => .completeColorB b
  | .pixel => .completePixel b
  | .shade => .completeShade b

/-- One byte decoded in a mode. In `PARAM_STATE` the byte `'I'`, which every effect row leaves out, is the abort of mode
`PARAM` (R67, R73). -/
def decodeByte (m : Mode) (b : Byte) : Instr :=
  match m with
  | .topA => decodeTopA b
  | .topB => decodeTopB b
  | .param => decodeParam b
  | .paramState slot => if b = byteI then .abort else effectRow slot b

/-- Decode the first instruction of a byte sequence and give back the rest: a unit is always one byte (R54). -/
def decode (m : Mode) : List Byte → Except DecodeError (Instr × List Byte)
  | [] => .error .noByte
  | b :: rest => .ok (decodeByte m b, rest)

/-! ### The opcode table as data (R67) -/

/-- A row of spec/opcode_table.json: a byte `b` is the row's when `(b & mask) = match`, `lo ≤ b ≤ hi`, and `b` is not the
excepted byte; `read` gives the row's instruction for it. -/
structure TableRow where
  mnemonic : String
  mode : Mode
  priority : Nat
  pattern : Byte
  mask : Byte
  lo : Byte
  hi : Byte
  except : Option Byte
  read : Byte → Instr

/-- A row that fixes all eight bits. -/
def TableRow.fixed (name : String) (m : Mode) (priority : Nat) (b : Byte) (i : Instr) : TableRow :=
  ⟨name, m, priority, b, 0xFF#8, 0x00#8, 0xFF#8, none, fun _ => i⟩

/-- A row given by a range of bytes. -/
def TableRow.range (name : String) (m : Mode) (priority : Nat) (lo hi : Byte) (read : Byte → Instr) : TableRow :=
  ⟨name, m, priority, 0x00#8, 0x00#8, lo, hi, none, read⟩

/-- A row of mode `PARAM_STATE`: every byte but `'I'`. -/
def TableRow.effect (name : String) (slot : StateSlot) (priority : Nat) (read : Byte → Instr) : TableRow :=
  ⟨name, .paramState slot, priority, 0x00#8, 0x00#8, 0x00#8, 0xFF#8, some byteI, read⟩

/-- Does the row take this byte? (R67) -/
def TableRow.takes (r : TableRow) (b : Byte) : Bool :=
  b &&& r.mask == r.pattern && r.lo ≤ b && b ≤ r.hi && r.except != some b

/-- The byte-class rows of the table, each mode's in rising priority. -/
def byteClassRows : List TableRow :=
  [ .fixed "INIT_A" .topA 0 0x49#8 .initA,
    .fixed "VERSION_A" .topA 1 0x56#8 .versionA,
    .range "IGNORE_A" .topA 9 0x00#8 0xFF#8 .ignoreA,
    .fixed "INIT_B" .topB 0 0x49#8 .initB,
    .fixed "VERSION_B" .topB 1 0x56#8 .versionB,
    .fixed "PIXEL" .topB 2 0x50#8 .pixel,
    .fixed "LATCH_FRAME" .topB 3 0x4C#8 .latchFrame,
    .fixed "SHADE" .topB 4 0x53#8 .shade,
    .fixed "RAW_FRAME" .topB 5 0x57#8 .rawFrame,
    .range "UNRECOGNIZED_B" .topB 9 0x00#8 0xFF#8 .unrecognizedB,
    .fixed "ABORT" .param 0 0x49#8 .abort,
    .range "DIGIT_DEC" .param 1 0x30#8 0x39#8 (fun b => .digitDec (digitNibble b 0x30#8)),
    .range "DIGIT_UC" .param 2 0x41#8 0x46#8 (fun b => .digitUc (digitNibble b 0x37#8)),
    .range "DIGIT_LC" .param 3 0x61#8 0x66#8 (fun b => .digitLc (digitNibble b 0x57#8)),
    .range "DIGIT_NONHEX" .param 9 0x00#8 0xFF#8 .digitNonhex ]

/-- The `PARAM_STATE` rows of the table. -/
def effectRows : List TableRow :=
  [ .effect "LENGTH_DIGIT_A" .lengthA 0 .lengthDigitA,
    .effect "COMPLETE_INIT_A" .lengthALast 1 .completeInitA,
    .effect "DIGIT_B_NUM" .numB 2 .digitBNum,
    .effect "COMPLETE_NUM_B" .numBLast 3 .completeNumB,
    .effect "COMPLETE_REINIT_B" .reinit 4 .completeReinitB,
    .effect "ENTER_COLOR" .color 5 .enterColor,
    .effect "COMPLETE_RAW_FRAME" .raw 6 .completeRawFrame,
    .effect "COMPLETE_UNKNOWN" .unknown 7 .completeUnknown,
    .effect "PIXEL_GUARD_LATE" .lateGuard 8 .pixelGuardLate,
    .effect "DIGIT_B_COLOR" .colorB 9 .digitBColor,
    .effect "COMPLETE_COLOR_B" .colorBLast 10 .completeColorB,
    .effect "COMPLETE_PIXEL" .pixel 11 .completePixel,
    .effect "COMPLETE_SHADE" .shade 12 .completeShade ]

/-- All 28 rows, in the table's order. -/
def opcodeTable : List TableRow := byteClassRows ++ effectRows

/-- The first row of a mode, in rising priority, that takes the byte (R67). -/
def lookupRow (m : Mode) (b : Byte) : Option TableRow :=
  (opcodeTable.filter fun r => r.mode = m).find? fun r => r.takes b

/-! ### The encoder -/

/-- The mode in which an instruction's row stands in the table. -/
def Instr.mode : Instr → Mode
  | .initA => .topA
  | .versionA => .topA
  | .ignoreA _ => .topA
  | .initB => .topB
  | .versionB => .topB
  | .pixel => .topB
  | .latchFrame => .topB
  | .shade => .topB
  | .rawFrame => .topB
  | .unrecognizedB _ => .topB
  | .abort => .param
  | .digitDec _ => .param
  | .digitUc _ => .param
  | .digitLc _ => .param
  | .digitNonhex _ => .param
  | .lengthDigitA _ => .paramState .lengthA
  | .completeInitA _ => .paramState .lengthALast
  | .digitBNum _ => .paramState .numB
  | .completeNumB _ => .paramState .numBLast
  | .completeReinitB _ => .paramState .reinit
  | .enterColor _ => .paramState .color
  | .completeRawFrame _ => .paramState .raw
  | .completeUnknown _ => .paramState .unknown
  | .pixelGuardLate _ => .paramState .lateGuard
  | .digitBColor _ => .paramState .colorB
  | .completeColorB _ => .paramState .colorBLast
  | .completePixel _ => .paramState .pixel
  | .completeShade _ => .paramState .shade

/-- The byte of an instruction (R53, R56 to R58). -/
def encode : Instr → Byte
  | .initA => 0x49#8
  | .versionA => 0x56#8
  | .ignoreA b => b
  | .initB => 0x49#8
  | .versionB => 0x56#8
  | .pixel => 0x50#8
  | .latchFrame => 0x4C#8
  | .shade => 0x53#8
  | .rawFrame => 0x57#8
  | .unrecognizedB b => b
  | .abort => 0x49#8
  | .digitDec n => 0x30#8 + n.setWidth 8
  | .digitUc n => 0x37#8 + n.setWidth 8
  | .digitLc n => 0x57#8 + n.setWidth 8
  | .digitNonhex b => b
  | .lengthDigitA b => b
  | .completeInitA b => b
  | .digitBNum b => b
  | .completeNumB b => b
  | .completeReinitB b => b
  | .enterColor b => b
  | .completeRawFrame b => b
  | .completeUnknown b => b
  | .pixelGuardLate b => b
  | .digitBColor b => b
  | .completeColorB b => b
  | .completePixel b => b
  | .completeShade b => b

/-! ### The host's table words -/

/-- The byte in an instruction word the host writes: bits 7..0, the bits from `nbits` on being 0 (every unit is one byte,
R54). -/
def wordByte (nbits w : Nat) : Byte := BitVec.ofNat 8 (w % 2 ^ nbits)

/-- A word does not say its mode. The host's word is read in the first of the modes `TOP_A`, `TOP_B`, `PARAM` whose table
has a row for this byte by value or by a proper range; a byte no mode lists so is `TOP_A`'s. DESIGN CHOICE, safe (log 9). -/
def tableMode (b : Byte) : Mode :=
  if isCommandA b then .topA
  else if isCommandB b then .topB
  else if isDecByte b || isUcByte b || isLcByte b then .param
  else .topA

/-- The instruction the decoder reads from the host's word, in the mode `tableMode` gives it (log 9). -/
def decodeTableWord (nbits w : Nat) : Option Instr :=
  match decode (tableMode (wordByte nbits w)) [wordByte nbits w] with
  | .ok (i, _) => some i
  | .error _ => none

end Sys2Proof
end

