-- ==== Sys2Proof/Config.lean ====
section
/-! DEFINITION. The parameters of 00_scope.md R5 and the values the spec leaves open (93_implementation_defined.md).
A constant declared `opaque` has no body: no proof can rest on what it is. -/

namespace Sys2Proof

/-- PIXEL_GUARD_POINT (R5): the byte at which PIXEL's index-equals-length guard is checked (R99, R100). -/
inductive GuardPoint where
  | atParamComplete
  | atFirstColorByte
deriving DecidableEq, Repr, Inhabited

/-- The parameters a model of the decoder takes as arguments (R5), fixed for a model and changed by no step (R27).
STRIP_RESIZE is a function; `stripResizeAt` lists its value at the lengths where it is fixed, and at every other length it
is the free function `Config.stripResize` (log 4). DIAG_RENDER is not here: no step reads it (R131; log 16). -/
structure Params where
  /-- LATCH_TIMEOUT_MS (R5, R124). -/
  latchTimeoutMs : U32
  /-- LATCH_TIME_INIT (R5, R29). -/
  latchTimeInit : U32
  /-- PIXEL_GUARD_POINT (R5). -/
  pixelGuardPoint : GuardPoint
  /-- STRIP_RESIZE where it is fixed, as (length asked for, count reported) (R5, R38). -/
  stripResizeAt : List (U16 × U16)
  /-- PROGRAM_NAME (R5). -/
  programName : List Byte
  /-- BUILD_DATE (R5). -/
  buildDate : List Byte
  /-- VERSION_STRING (R5). -/
  versionString : List Byte
deriving DecidableEq, Repr

namespace Config

/-- LATCH_TIMEOUT_MS of the machine at `State.reset`: OPEN (R5, U1). DESIGN CHOICE, safe: free (log 1). -/
opaque latchTimeoutMs : U32

/-- PROGRAM_NAME of the machine at `State.reset`: OPEN (R5, U12). DESIGN CHOICE, safe: free (log 1). -/
opaque programName : List Byte

/-- BUILD_DATE of the machine at `State.reset`: OPEN (R5, U12). DESIGN CHOICE, safe: free (log 1). -/
opaque buildDate : List Byte

/-- VERSION_STRING of the machine at `State.reset`: OPEN (R5, U12). DESIGN CHOICE, safe: free (log 1). -/
opaque versionString : List Byte

/-- STRIP_RESIZE where the parameters do not fix it: OPEN (R5, R38, U4). DESIGN CHOICE, safe: free (log 4). -/
opaque stripResize : U16 → U16

/-- The pixels the strip's buffer holds after `setLength(n)`, from those it held before, in any order: the spec does not say
(R38, R4). DESIGN CHOICE, safe: free (log 5). -/
opaque pixelsAfterResize : U16 → List (Nat × U32) → List (U16 × U32)

/-- The strip's pixel count before the first `setLength`: any value (R39, U5). DESIGN CHOICE, safe: free (log 7). -/
opaque pixelCountAtReset : U16

/-- The clock before the first byte arrives: any value (U13). DESIGN CHOICE, safe: free (log 8). -/
opaque clockAtReset : U32

/-- DIAG_RENDER: how a 16-bit value marked `hex` is spelled (R131, U11). DESIGN CHOICE, safe: free (log 16). -/
opaque hexText16 : U16 → List Byte

/-- DIAG_RENDER: how an 8-bit value marked `hex` is spelled (R131, U11). DESIGN CHOICE, safe: free (log 16). -/
opaque hexText8 : Byte → List Byte

/-- DIAG_RENDER: how the number of `enp=:` is spelled, whose radix no passage gives (R131, U11). DESIGN CHOICE, safe: free
(log 16). -/
opaque enpEqText : U16 → List Byte

/-- DIAG_RENDER: the line terminator (R131, U11). DESIGN CHOICE, safe: free (log 16). -/
opaque lineEnd : List Byte

/-- The parameters of the machine at `State.reset`: the spec's defaults where it gives one (LATCH_TIME_INIT 0,
PIXEL_GUARD_POINT AT_PARAM_COMPLETE, R5; log 2, log 3), free constants elsewhere (log 1). -/
def params : Params where
  latchTimeoutMs := latchTimeoutMs
  latchTimeInit := 0#32
  pixelGuardPoint := .atParamComplete
  stripResizeAt := []
  programName := programName
  buildDate := buildDate
  versionString := versionString

end Config

end Sys2Proof
end

