-- ==== Sys2Proof/Machine/State.lean ====
section
/-! DEFINITION. The state of the machine: the eight registers of 10_state.md R11, the environment of R20, the arrivals not yet
fed and the parameters, with the value of every field after reset. -/

namespace Sys2Proof.Machine

/-- The nine kinds of diagnostic event with their arguments (60_exceptions.md R130). -/
inductive Diag where
  | initOk (count : U16)
  | initFailed
  | version (program date version : List Byte)
  | initDone (count : U16)
  | euc (command : Byte)
  | enp (numParam : U16) (command : Byte)
  | enpEq (numParam : U16)
  | elt
  | rawFrame
deriving DecidableEq, Repr

/-- The output events of a step (00_scope.md R10). -/
inductive Event where
  | setLength (n : U16)
  | setPixel (index : U16) (color : U32)
  | showFrame
  | diag (d : Diag)
deriving DecidableEq, Repr

/-- The pixel index space (20_memory.md R36): pairs of an index and its 32-bit colour, the unit in which the strip is written
(R42). An index that is not listed has no known colour. The canonical form is `Memory.wf` in Machine/Ops.lean. -/
abbrev Memory := List (Nat × U32)

/-- The PixelStrip (10_state.md R20). -/
structure Strip where
  /-- What `StripPixelCount()` reads (20_memory.md R39). -/
  pixelCount : U16
  /-- The pixel buffer, which `StripSetPixel` writes (R40). -/
  pixels : Memory
  /-- The buffer as the last `StripShow()` transmitted it (R41, R50). -/
  shown : Memory
deriving DecidableEq, Repr

/-- A byte the host presents, with the value `NowMillis()` gives in its step (70_reset_and_hazards.md R149, R160; log 8). -/
structure Arrival where
  byte : Byte
  now : U32
deriving DecidableEq, Repr

/-- The whole machine: plain data. -/
structure State where
  /-- Strip length configured: Phase B (10_state.md R12). -/
  initialized : Bool
  /-- A command is pending (R13). -/
  hasCommand : Bool
  /-- The accepted command byte (R14). -/
  command : Byte
  /-- The numeric field is complete and digits go to `colorParam` (R15). -/
  hasNumParam : Bool
  /-- The numeric parameter (R16). -/
  numParam : U16
  /-- The digit cursor of the field being read (R17). -/
  paramPos : BitVec 8
  /-- The colour (R18). -/
  colorParam : U32
  /-- `NowMillis()` at the last successful latch (R19). -/
  latchTime : U32
  /-- The strip, state of the environment (R20). -/
  strip : Strip
  /-- What `NowMillis()` gives in the step under way (00_scope.md R9; log 8). -/
  now : U32
  /-- The bytes that have arrived and are not yet fed, in arrival order (70_reset_and_hazards.md R149; log 8). -/
  input : List Arrival
  /-- The events of the run so far, oldest first (00_scope.md R10; log 17). -/
  events : List Event
  /-- The parameters, which no step changes (00_scope.md R5, 10_state.md R27; log 1). -/
  params : Params
deriving DecidableEq, Repr

/-- The decoder has no fault: no byte is illegal and none traps (30_encoding.md R63), and every error is a diagnostic after
which it goes on (60_exceptions.md R128). So there is no constructor. -/
inductive Fault
deriving DecidableEq, Repr

/-- The reasons a meaning gives no next state. -/
inductive Refusal where
  /-- Raised by an arm of `exec` whose instruction has no meaning yet; no arm is left so. Safe. -/
  | notModelled (mnemonic : String)
  /-- Raised where a SetPixel would reach the strip with an index not below its pixel count: what the strip does there "is not
  specified" (20_memory.md R40), and the treatment is `refuse` (93_implementation_defined.md U6). Not reachable from power-on
  reset. Safe (log 10). -/
  | pixelIndexOutOfRange (count : U16)
  /-- Raised where a colour field completes under a command other than PIXEL and SHADE: the arm the spec leaves out
  (42_phase_b.md R103), whose treatment is `refuse` (93_implementation_defined.md U9). Not reachable from power-on reset.
  Safe (log 11). -/
  | noColorContinuation (command : Byte)
deriving DecidableEq, Repr

/-- What a step answers. -/
abbrev Result := Host.Outcome State Fault Refusal

/-- The machine right after power-on (10_state.md R29), in an environment of which the spec gives nothing (R20, R146): the
free values of Config stand for what it leaves open (log 1, 6, 7, 8). -/
def State.reset : State where
  initialized := false
  hasCommand := false
  command := 0x00#8
  hasNumParam := false
  numParam := 0x0000#16
  paramPos := 0x00#8
  colorParam := 0x00000000#32
  latchTime := Config.params.latchTimeInit
  strip := { pixelCount := Config.pixelCountAtReset, pixels := [], shown := [] }
  now := Config.clockAtReset
  input := []
  events := []
  params := Config.params

end Sys2Proof.Machine
end

