-- ==== Sys2Proof/Machine/Ops.lean ====
section
/-! DEFINITION. The shared operations: the pixel memory, the strip and clock primitives (00_scope.md R9, 20_memory.md R38 to
R41), events and errors (00_scope.md R9, R10), ParserReset (40_feed_byte.md R74), Latch (44_latch.md R121), the SHADE fill
(42_phase_b.md R105), power-on reset (70_reset_and_hazards.md R146) and the fetch of the next byte. -/

namespace Sys2Proof.Machine

/-! ### The pixel memory -/

/-- The canonical form: indices strictly rising, each one a u16 index (R36). -/
abbrev Memory.wf (m : Memory) : Prop :=
  m.Pairwise (fun e f => e.1 < f.1) ∧ ∀ e ∈ m, e.1 < 2 ^ 16

/-- The colour known at an index, if any (log 6). -/
def Memory.read : Memory → Nat → Option U32
  | [], _ => none
  | (k, v) :: rest, a => if k = a then some v else Memory.read rest a

/-- Set one entry, keeping the canonical form. -/
def Memory.write : Memory → Nat → U32 → Memory
  | [], a, c => [(a, c)]
  | (k, v) :: rest, a, c =>
    if a < k then (a, c) :: (k, v) :: rest
    else if a = k then (a, c) :: rest
    else (k, v) :: Memory.write rest a c

/-- The canonical memory of a list of entries; of two for one index the later counts. -/
def Memory.ofEntries (l : List (U16 × U32)) : Memory :=
  l.foldl (fun m e => m.write e.1.toNat e.2) []

/-! ### Parameters -/

/-- `STRIP_RESIZE(n)` (00_scope.md R5; log 4). -/
def stripResize (p : Params) (n : U16) : U16 :=
  match p.stripResizeAt.lookup n with
  | some count => count
  | none => Config.stripResize n

/-! ### Events, ParserReset and errors -/

/-- Emit one output event (R10). -/
def emit (e : Event) (s : State) : State :=
  { s with events := s.events ++ [e] }

/-- `ParserReset()` (R74): the neutral sub-state; `initialized` and `latchTime` are kept. -/
def parserReset (s : State) : State :=
  { s with
    hasCommand := false
    command := 0x00#8
    hasNumParam := false
    numParam := 0x0000#16
    paramPos := 0x00#8
    colorParam := 0x00000000#32 }

/-- `raise D` (R9), the taking of every error: emit, then reset; nothing is saved (60_exceptions.md R135). There is no return
from an error (R136). A report that ends its command the same way (R133) uses it too. -/
def raiseDiag (d : Diag) (s : State) : State :=
  parserReset (emit (.diag d) s)

/-! ### The strip and the clock -/

/-- `StripPixelCount()` (R39). -/
def stripPixelCount (s : State) : U16 := s.strip.pixelCount

/-- `StripSetLength(n)` (R38): the event, and the strip's new count, which `stripPixelCount` reads afterwards. What the buffer
then holds is free (log 5). -/
def stripSetLength (n : U16) (s : State) : State :=
  emit (.setLength n)
    { s with
      strip :=
        { s.strip with
          pixelCount := stripResize s.params n
          pixels := Memory.ofEntries (Config.pixelsAfterResize n s.strip.pixels) } }

/-- `StripSetPixel(i, c)` for a valid index (R40). -/
def stripSetPixel (i : U16) (c : U32) (s : State) : State :=
  emit (.setPixel i c)
    { s with strip := { s.strip with pixels := s.strip.pixels.write i.toNat c } }

/-- `StripShow()` (R41): the strip transmits its whole buffer as it stands. -/
def stripShow (s : State) : State :=
  emit .showFrame { s with strip := { s.strip with shown := s.strip.pixels } }

/-- `NowMillis()` (R9): the environment's value in this step (log 8). -/
def nowMillis (s : State) : U32 := s.now

/-- Elapsed time, modulo 2^32 (R123), strictly above the timeout (R124). -/
def latchAllowed (s : State) : Bool :=
  s.params.latchTimeoutMs < nowMillis s - s.latchTime

/-- `Latch()` (R121, R122): a rate-limited transmit. A refused latch is dropped (R125). It does not reset the parser. -/
def latch (s : State) : State :=
  if latchAllowed s then { stripShow s with latchTime := nowMillis s }
  else emit (.diag .elt) s

/-- SHADE's fill loop (R105): `StripSetPixel(i, c)` for i = 0, 1, ..., n-1. -/
def fillPixels (c : U32) : Nat → State → State
  | 0, s => s
  | n + 1, s => stripSetPixel (BitVec.ofNat 16 n) c (fillPixels c n s)

/-! ### Accepting a command, power-on reset -/

/-- A command byte that takes parameters is accepted (R81, R89, R91, R93, R95): `command` holds the byte itself (R14). -/
def acceptCommand (b : Byte) (s : State) : State :=
  { s with hasCommand := true, command := b, paramPos := 0x00#8 }

/-- The VERSION report (R82, R90). -/
def reportVersion (s : State) : State :=
  raiseDiag (.version s.params.programName s.params.buildDate s.params.versionString) s

/-- Power-on reset (R29, R146): the registers; the environment, the bytes still to come and the events already sent stay. It
is an action between steps (log 18). -/
def powerOnReset (s : State) : State :=
  { parserReset s with initialized := false, latchTime := s.params.latchTimeInit }

/-! ### Fetching the next byte -/

/-- Take the next arrival: its byte, if there is one, and the state in which its step runs (R7, R149; log 8). -/
def fetch (s : State) : List Byte × State :=
  match s.input with
  | [] => ([], s)
  | a :: rest => ([a.byte], { s with input := rest, now := a.now })

/-- A byte arrives ahead of those that wait, with the clock as it is: how the host's word is placed (log 9). -/
def arriveNext (b : Byte) (s : State) : State :=
  { s with input := { byte := b, now := s.now } :: s.input }

end Sys2Proof.Machine
end

