-- ==== Sys2Proof/Machine/Operands.lean ====
section
/-! DEFINITION. The operands of the decoder: the nibble of a byte (43_hex_accumulator.md R111) and the two accumulators that
build the numeric parameter (R113) and the colour (R114). -/

namespace Sys2Proof.Machine

/-- `HexVal(b)` (R111). -/
def hexVal (b : Byte) : Nibble :=
  if 0x30#8 ≤ b ∧ b ≤ 0x39#8 then (b - 0x30#8).setWidth 4
  else if 0x41#8 ≤ b ∧ b ≤ 0x46#8 then (b - 0x37#8).setWidth 4
  else if 0x61#8 ≤ b ∧ b ≤ 0x66#8 then (b - 0x57#8).setWidth 4
  else 0x0#4

/-- The digit `n` as it is merged into the low byte at cursor `pos`: bits 7:4 at an even position, bits 3:0 at an odd one
(R113, R114; decision D29, log 14). -/
def mergedDigit (w : Nat) (pos : BitVec 8) (n : Nibble) : BitVec w :=
  if pos.getLsbD 0 then n.setWidth w else n.setWidth w <<< 4

/-- The numeric accumulator after the digit `n` at cursor `pos` (R113). -/
def nextNum (pos : BitVec 8) (v : U16) (n : Nibble) : U16 :=
  let cleared := if pos = 0x00#8 then 0x0000#16 else v
  let shifted := if pos = 0x02#8 then cleared <<< 8 else cleared
  shifted ||| mergedDigit 16 pos n

/-- The colour accumulator after the digit `n` at cursor `pos` (R114). -/
def nextColor (pos : BitVec 8) (v : U32) (n : Nibble) : U32 :=
  let cleared := if pos = 0x00#8 then 0x00000000#32 else v
  let shifted := if pos = 0x02#8 ∨ pos = 0x04#8 then cleared <<< 8 else cleared
  shifted ||| mergedDigit 32 pos n

/-- `AccumulateNum(n)` (R113). -/
def accumulateNum (n : Nibble) (s : State) : State :=
  { s with numParam := nextNum s.paramPos s.numParam n, paramPos := s.paramPos + 1#8 }

/-- `AccumulateColor(n)` (R114). -/
def accumulateColor (n : Nibble) (s : State) : State :=
  { s with colorParam := nextColor s.paramPos s.colorParam n, paramPos := s.paramPos + 1#8 }

end Sys2Proof.Machine
end

