-- ==== Sys2Proof/Machine/Flags.lean ====
section
/-! DEFINITION. What the three 1-bit registers and the control state select (10_state.md R22, R26, R28): the status output, the
decode mode (30_encoding.md R55), and the control states of the `PARAM_STATE` rows (R67). -/

namespace Sys2Proof.Machine

/-- The status output `isInitialized` (R26): a pure query. -/
def isInitialized (s : State) : Bool := s.initialized

/-- The decode mode (R55). -/
def decodeMode (s : State) : Mode :=
  if s.hasCommand then .param
  else if s.initialized then .topB
  else .topA

/-- `LengthA(k)` (R22). -/
def inLengthA (s : State) : Bool := s.hasCommand && !s.initialized

/-- `NumB(c, k)` for some c (R22). -/
def inNumB (s : State) : Bool := s.hasCommand && s.initialized && !s.hasNumParam

/-- `ColorB(c, k)` for some c (R22). -/
def inColorB (s : State) : Bool := s.hasCommand && s.initialized && s.hasNumParam

/-- `numParam > P`, the unsigned exceeds check (R97). -/
def exceedsCount (s : State) : Bool := stripPixelCount s < s.numParam

/-- The step at which the late PIXEL guard is made (R71, R100). -/
def lateGuardDue (s : State) : Bool :=
  s.params.pixelGuardPoint == .atFirstColorByte && s.command == byteP && s.paramPos == 0x00#8

/-- PIXEL's guard: the index equals the pixel count (R99, R100). -/
def indexEqualsCount (s : State) : Bool := s.numParam == stripPixelCount s

/-- The last digit position of the numeric field in Phase B, with a completed value that the exceeds check lets pass. -/
def numFieldPasses (b : Byte) (s : State) : Bool :=
  inNumB s && s.paramPos == 0x03#8 && !exceedsCount (accumulateNum (hexVal b) s)

/-- Does the control state of an effect row hold, for a digit byte `b`? (`fields.state` of the table, R67) -/
def slotHolds (slot : StateSlot) (b : Byte) (s : State) : Bool :=
  match slot with
  | .lengthA => inLengthA s && s.paramPos ≤ 0x02#8
  | .lengthALast => inLengthA s && s.paramPos == 0x03#8
  | .numB => inNumB s && s.paramPos ≤ 0x02#8
  | .numBLast => inNumB s && s.paramPos == 0x03#8
  | .reinit => numFieldPasses b s && s.command == byteI
  | .color => numFieldPasses b s && (s.command == byteS || s.command == byteP)
  | .raw => numFieldPasses b s && s.command == byteW
  | .unknown =>
    numFieldPasses b s
      && !(s.command == byteI || s.command == byteS || s.command == byteP || s.command == byteW)
  | .lateGuard => inColorB s && lateGuardDue s
  | .colorB => inColorB s && s.paramPos ≤ 0x04#8
  | .colorBLast => inColorB s && s.paramPos == 0x05#8
  | .pixel => inColorB s && s.paramPos == 0x05#8 && s.command == byteP
  | .shade => inColorB s && s.paramPos == 0x05#8 && s.command == byteS

/-- The state in which a byte of the host's word is decoded in the mode `tableMode` gave it: unchanged where that is already
its mode, else the neutral state of the phase, or a pending INIT at its first digit (R22). It stands for what the host would
have to feed first (log 9). -/
def selectMode (m : Mode) (s : State) : State :=
  if decodeMode s = m then s
  else
    match m with
    | .topA => { parserReset s with initialized := false }
    | .topB => { parserReset s with initialized := true }
    | .param => acceptCommand byteI (parserReset s)
    | .paramState _ => s

end Sys2Proof.Machine
end

