-- ==== Sys2Proof/Machine/ColorField.lean ====
section
/-! DEFINITION. The colour field (42_phase_b.md, section 4, and the late PIXEL guard R100). -/

namespace Sys2Proof.Machine

/-- `CompletePixel()` (R104). An index not below the count never comes here from power-on reset; what the strip would do is
not specified (R40), so it is refused (U6; log 10). -/
def finishPixel (s : State) : Result :=
  if s.numParam < stripPixelCount s then
    .next (parserReset (stripSetPixel s.numParam s.colorParam s))
  else .refused (.pixelIndexOutOfRange s.numParam)

/-- `CompleteShade()` (R105): fill, latch, reset. The indices are `0 .. numParam-1`; where one of them is not below the count
the fill is refused (U6; log 10). -/
def finishShade (s : State) : Result :=
  if s.numParam ≤ stripPixelCount s then
    .next (parserReset (latch (fillPixels s.colorParam s.numParam.toNat s)))
  else .refused (.pixelIndexOutOfRange (stripPixelCount s))

/-- `CompleteColorB()` (R103). No other command can hold a colour field; the missing arm is refused (U9; log 11). -/
def finishColorB (s : State) : Result :=
  if s.command = byteP then finishPixel s
  else if s.command = byteS then finishShade s
  else .refused (.noColorContinuation s.command)

/-- The error of `PixelGuardLate()` (R100): the byte is consumed and not accumulated. -/
def failLateGuard (s : State) : State := raiseDiag (.enpEq s.numParam) s

/-- PIXEL_GUARD_LATE (R100): the guard; where it passes, the byte is colour digit 0 (R71). -/
def execPixelGuardLate (b : Byte) (s : State) : Result :=
  .next (if indexEqualsCount s then failLateGuard s else accumulateColor (hexVal b) s)

/-- DIGIT_B_COLOR (R96, in `ColorB`): the digit, after the late guard where it applies. -/
def execDigitBColor (b : Byte) (s : State) : Result :=
  .next (if lateGuardDue s && indexEqualsCount s then failLateGuard s else accumulateColor (hexVal b) s)

/-- COMPLETE_COLOR_B (R103). -/
def execCompleteColorB (b : Byte) (s : State) : Result :=
  finishColorB (accumulateColor (hexVal b) s)

/-- COMPLETE_PIXEL (R104). -/
def execCompletePixel (b : Byte) (s : State) : Result :=
  finishPixel (accumulateColor (hexVal b) s)

/-- COMPLETE_SHADE (R105). -/
def execCompleteShade (b : Byte) (s : State) : Result :=
  finishShade (accumulateColor (hexVal b) s)

end Sys2Proof.Machine
end

