-- ==== Sys2Proof/Machine/NumericField.lean ====
section
/-! DEFINITION. The numeric field in Phase B (42_phase_b.md, sections 2 and 3). -/

namespace Sys2Proof.Machine

/-- `CompleteReinitB(P)` (R98): the report names the strip's count; the strip is not resized. -/
def finishReinitB (s : State) : State := raiseDiag (.initDone (stripPixelCount s)) s

/-- `EnterColor(P)` (R99): PIXEL's guard where it is made here, else on to the colour field. -/
def finishEnterColor (s : State) : State :=
  if s.command = byteP ∧ s.params.pixelGuardPoint = .atParamComplete ∧ indexEqualsCount s then
    raiseDiag (.enpEq s.numParam) s
  else { s with hasNumParam := true, paramPos := 0x00#8 }

/-- `CompleteRawFrame()` (R101): the stub marker; no payload is consumed. -/
def finishRawFrame (s : State) : State := raiseDiag .rawFrame s

/-- `CompleteUnknown()` (R102; log 12). -/
def finishUnknown (s : State) : State := raiseDiag (.euc s.command) s

/-- `CompleteNumB()` (R97): the exceeds check first, then the command's own continuation. -/
def finishNumB (s : State) : State :=
  if exceedsCount s then raiseDiag (.enp s.numParam s.command) s
  else if s.command = byteI then finishReinitB s
  else if s.command = byteS then finishEnterColor s
  else if s.command = byteP then finishEnterColor s
  else if s.command = byteW then finishRawFrame s
  else finishUnknown s

/-- DIGIT_B_NUM (R96, in `NumB`). -/
def execDigitBNum (b : Byte) (s : State) : Result := .next (accumulateNum (hexVal b) s)

/-- COMPLETE_NUM_B (R97). -/
def execCompleteNumB (b : Byte) (s : State) : Result :=
  .next (finishNumB (accumulateNum (hexVal b) s))

/-- COMPLETE_REINIT_B (R98). -/
def execCompleteReinitB (b : Byte) (s : State) : Result :=
  .next (finishReinitB (accumulateNum (hexVal b) s))

/-- ENTER_COLOR (R99). -/
def execEnterColor (b : Byte) (s : State) : Result :=
  .next (finishEnterColor (accumulateNum (hexVal b) s))

/-- COMPLETE_RAW_FRAME (R101). -/
def execCompleteRawFrame (b : Byte) (s : State) : Result :=
  .next (finishRawFrame (accumulateNum (hexVal b) s))

/-- COMPLETE_UNKNOWN (R102). -/
def execCompleteUnknown (b : Byte) (s : State) : Result :=
  .next (finishUnknown (accumulateNum (hexVal b) s))

end Sys2Proof.Machine
end

