-- ==== Sys2Proof/Machine/PhaseA.lean ====
section
/-! DEFINITION. Phase A (41_phase_a.md): the rows of mode `TOP_A` and the effect rows of the length field. -/

namespace Sys2Proof.Machine

/-- INIT_A (R81). -/
def execInitA (s : State) : Result := .next (acceptCommand byteI s)

/-- VERSION_A (R82). -/
def execVersionA (s : State) : Result := .next (reportVersion s)

/-- IGNORE_A (R83). -/
def execIgnoreA (_b : Byte) (s : State) : Result := .next s

/-- `CompleteInitA()` (R85), after the fourth digit. The count is the one the strip reports. -/
def finishInitA (s : State) : State :=
  let sized := stripSetLength s.numParam s
  if stripPixelCount sized ≠ 0#16 then
    raiseDiag (.initOk (stripPixelCount sized)) { sized with initialized := true }
  else raiseDiag .initFailed sized

/-- LENGTH_DIGIT_A (R84). -/
def execLengthDigitA (b : Byte) (s : State) : Result := .next (accumulateNum (hexVal b) s)

/-- COMPLETE_INIT_A (R85). -/
def execCompleteInitA (b : Byte) (s : State) : Result :=
  .next (finishInitA (accumulateNum (hexVal b) s))

end Sys2Proof.Machine
end

