-- ==== Sys2Proof/Machine/Digits.lean ====
section
/-! DEFINITION. Mode `PARAM` (30_encoding.md R58): the abort (40_feed_byte.md R72) and the digit classes, which take their
nibble through part 3 of the feed step (R71). -/

namespace Sys2Proof.Machine

/-- Part 3 of `FeedByte` (R71): the phase and `hasNumParam` pick the field the digit `n` goes to; after it is accumulated, the
field may be complete (R73). -/
def takeDigit (n : Nibble) (s : State) : Result :=
  if s.initialized = false then
    let t := accumulateNum n s
    if t.paramPos = 0x04#8 then .next (finishInitA t) else .next t
  else if s.hasNumParam = false then
    let t := accumulateNum n s
    if t.paramPos = 0x04#8 then .next (finishNumB t) else .next t
  else if lateGuardDue s ∧ indexEqualsCount s then .next (failLateGuard s)
  else
    let t := accumulateColor n s
    if t.paramPos = 0x06#8 then finishColorB t else .next t

/-- ABORT (R72). -/
def execAbort (s : State) : Result := .next (parserReset s)

/-- DIGIT_DEC (R58). -/
def execDigitDec (n : Nibble) (s : State) : Result := takeDigit n s

/-- DIGIT_UC (R58). -/
def execDigitUc (n : Nibble) (s : State) : Result := takeDigit n s

/-- DIGIT_LC (R58). -/
def execDigitLc (n : Nibble) (s : State) : Result := takeDigit n s

/-- DIGIT_NONHEX (R58, R63): the digit 0. -/
def execDigitNonhex (_b : Byte) (s : State) : Result := takeDigit 0x0#4 s

end Sys2Proof.Machine
end

