-- ==== Sys2Proof/Machine/PhaseB.lean ====
section
/-! DEFINITION. Phase B at top level (42_phase_b.md, section 1): the rows of mode `TOP_B`. -/

namespace Sys2Proof.Machine

/-- INIT_B (R89). -/
def execInitB (s : State) : Result := .next (acceptCommand byteI s)

/-- VERSION_B (R90). -/
def execVersionB (s : State) : Result := .next (reportVersion s)

/-- PIXEL (R91). -/
def execPixel (s : State) : Result := .next (acceptCommand byteP s)

/-- LATCH_FRAME (R92): the latch, then the reset either way. -/
def execLatchFrame (s : State) : Result := .next (parserReset (latch s))

/-- SHADE (R93). -/
def execShade (s : State) : Result := .next (acceptCommand byteS s)

/-- RAW_FRAME (R95). -/
def execRawFrame (s : State) : Result := .next (acceptCommand byteW s)

/-- UNRECOGNIZED_B (R94): resets silently. -/
def execUnrecognizedB (_b : Byte) (s : State) : Result := .next (parserReset s)

end Sys2Proof.Machine
end

