-- ==== Sys2Proof/Machine/Dispatch.lean ====
section
/-! DEFINITION. One arm per row of spec/opcode_table.json, each one call of its meaning. -/

namespace Sys2Proof.Machine

def exec (i : Instr) (s : State) : Host.Outcome State Fault Refusal :=
  match i with
  | .initA => Sys2Proof.Machine.execInitA s
  | .versionA => Sys2Proof.Machine.execVersionA s
  | .ignoreA b => Sys2Proof.Machine.execIgnoreA b s
  | .initB => Sys2Proof.Machine.execInitB s
  | .versionB => Sys2Proof.Machine.execVersionB s
  | .pixel => Sys2Proof.Machine.execPixel s
  | .latchFrame => Sys2Proof.Machine.execLatchFrame s
  | .shade => Sys2Proof.Machine.execShade s
  | .rawFrame => Sys2Proof.Machine.execRawFrame s
  | .unrecognizedB b => Sys2Proof.Machine.execUnrecognizedB b s
  | .abort => Sys2Proof.Machine.execAbort s
  | .digitDec n => Sys2Proof.Machine.execDigitDec n s
  | .digitUc n => Sys2Proof.Machine.execDigitUc n s
  | .digitLc n => Sys2Proof.Machine.execDigitLc n s
  | .digitNonhex b => Sys2Proof.Machine.execDigitNonhex b s
  | .lengthDigitA b => Sys2Proof.Machine.execLengthDigitA b s
  | .completeInitA b => Sys2Proof.Machine.execCompleteInitA b s
  | .digitBNum b => Sys2Proof.Machine.execDigitBNum b s
  | .completeNumB b => Sys2Proof.Machine.execCompleteNumB b s
  | .completeReinitB b => Sys2Proof.Machine.execCompleteReinitB b s
  | .enterColor b => Sys2Proof.Machine.execEnterColor b s
  | .completeRawFrame b => Sys2Proof.Machine.execCompleteRawFrame b s
  | .completeUnknown b => Sys2Proof.Machine.execCompleteUnknown b s
  | .pixelGuardLate b => Sys2Proof.Machine.execPixelGuardLate b s
  | .digitBColor b => Sys2Proof.Machine.execDigitBColor b s
  | .completeColorB b => Sys2Proof.Machine.execCompleteColorB b s
  | .completePixel b => Sys2Proof.Machine.execCompletePixel b s
  | .completeShade b => Sys2Proof.Machine.execCompleteShade b s

end Sys2Proof.Machine
end

