-- ==== Sys2Proof/Machine/FeedByte.lean ====
section
/-! DEFINITION. `FeedByte(b)` as the spec's pseudocode writes it (40_feed_byte.md R71), beside the decode-then-execute step of
Machine/Step.lean; that the two agree is a statement of the package. -/

namespace Sys2Proof.Machine

/-- `TopA(b)` (R71, R56). -/
def topA (b : Byte) (s : State) : Result :=
  if b = byteI then execInitA s
  else if b = byteV then execVersionA s
  else execIgnoreA b s

/-- `TopB(b)` (R71, R57). -/
def topB (b : Byte) (s : State) : Result :=
  if b = byteI then execInitB s
  else if b = byteV then execVersionB s
  else if b = byteP then execPixel s
  else if b = byteL then execLatchFrame s
  else if b = byteS then execShade s
  else if b = byteW then execRawFrame s
  else execUnrecognizedB b s

/-- `FeedByte(b)` (R71), with the order of tests of R73. -/
def feedByte (b : Byte) (s : State) : Result :=
  -- 1. abort
  if s.hasCommand = true ∧ b = 0x49#8 then .next (parserReset s)
  -- 2. top level
  else if s.hasCommand = false then
    if s.initialized = false then topA b s else topB b s
  -- 3. a digit: `LengthA(k)`
  else if s.initialized = false then
    let t := accumulateNum (hexVal b) s
    .next (if t.paramPos = 4#8 then finishInitA t else t)
  -- `NumB(c, k)`
  else if s.hasNumParam = false then
    let t := accumulateNum (hexVal b) s
    .next (if t.paramPos = 4#8 then finishNumB t else t)
  -- `ColorB(c, k)`
  else if s.params.pixelGuardPoint = .atFirstColorByte ∧ s.command = 0x50#8 ∧ s.paramPos = 0#8
      ∧ s.numParam = stripPixelCount s then
    .next (raiseDiag (.enpEq s.numParam) s)
  else
    let t := accumulateColor (hexVal b) s
    if t.paramPos = 6#8 then finishColorB t else .next t

end Sys2Proof.Machine
end

