-- ==== Sys2Proof/Machine/Status.lean ====
section
/-! DEFINITION. The status channel's text: the templates of 60_exceptions.md R130 and R131, with what DIAG_RENDER leaves open
as free constants of Config (log 16), and the diagnostic codes of R130. -/

namespace Sys2Proof.Machine

/-- The ASCII bytes of a text (00_scope.md R8). -/
def asciiBytes (cs : List Char) : List Byte := cs.map fun c => BitVec.ofNat 8 c.toNat

/-- The code of a diagnostic (R130). -/
def diagCode : Diag → Nat
  | .initOk _ => 1
  | .initFailed => 2
  | .version _ _ _ => 3
  | .initDone _ => 4
  | .euc _ => 5
  | .enp _ _ => 6
  | .enpEq _ => 7
  | .elt => 8
  | .rawFrame => 9

/-- Is the diagnostic an error rather than information? (R130, R133) -/
def diagIsError : Diag → Bool
  | .initOk _ => false
  | .initFailed => true
  | .version _ _ _ => false
  | .initDone _ => false
  | .euc _ => true
  | .enp _ _ => true
  | .enpEq _ => true
  | .elt => true
  | .rawFrame => false

/-- The line of a diagnostic without its terminator: the literal text and the order of the fields are the source's (R131). -/
def diagText : Diag → List Byte
  | .initOk count => asciiBytes ['I', 'n', 'i', 't', ' '] ++ Config.hexText16 count
  | .initFailed => asciiBytes ['I', 'n', 'i', 't', ' ', 'f', 'a', 'i', 'l', 'e', 'd']
  | .version program date version =>
    program ++ asciiBytes [':', ' '] ++ date ++ asciiBytes [' '] ++ version
  | .initDone count =>
    asciiBytes ['I', 'n', 'i', 't', ' ', 'd', 'o', 'n', 'e', ' '] ++ Config.hexText16 count
  | .euc command => asciiBytes ['e', 'u', 'c', ':'] ++ Config.hexText8 command
  | .enp numParam command =>
    asciiBytes ['e', 'n', 'p', ':'] ++ Config.hexText16 numParam
      ++ asciiBytes [',', 'c', ':'] ++ Config.hexText8 command
  | .enpEq numParam => asciiBytes ['e', 'n', 'p', '=', ':'] ++ Config.enpEqText numParam
  | .elt => asciiBytes ['e', 'l', 't']
  | .rawFrame =>
    asciiBytes ['p', 'r', 'o', 'c', 'e', 's', 's', 'R', 'a', 'w', 'F', 'r', 'a', 'm', 'e']

/-- DIAG_RENDER (R131): one line. -/
def renderDiag (d : Diag) : List Byte := diagText d ++ Config.lineEnd

/-- The diagnostics among the events. -/
def diagsOf : List Event → List Diag
  | [] => []
  | .diag d :: rest => d :: diagsOf rest
  | .setLength _ :: rest => diagsOf rest
  | .setPixel _ _ :: rest => diagsOf rest
  | .showFrame :: rest => diagsOf rest

/-- Everything the status channel has received, each line flushed as it came (R131, 20_memory.md R43). -/
def statusText (s : State) : List Byte := (diagsOf s.events).flatMap renderDiag

end Sys2Proof.Machine
end

