-- ==== Sys2Proof/Machine/Step.lean ====
section
/-! DEFINITION. One step: take the next byte, decode it in the mode of the state, execute (00_scope.md R7, 30_encoding.md R55,
40_feed_byte.md R71). -/

namespace Sys2Proof.Machine

/-- The feed step. With no byte waiting the decoder holds its state (60_exceptions.md R144; log 8). -/
def step (s : State) : Host.Outcome State Fault Refusal :=
  let (bytes, t) := fetch s
  match decode (decodeMode t) bytes with
  | .ok (i, _) => exec i t
  | .error .noByte => .next s

/-- The host's word placed where the next step fetches: the byte arrives first in the queue, in the mode in which
`decodeTableWord` reads it (log 9). -/
def State.withFetchWord (s : State) (nbits w : Nat) : State :=
  arriveNext (wordByte nbits w) (selectMode (tableMode (wordByte nbits w)) s)

end Sys2Proof.Machine
end

