-- ==== Sys2Proof/Safety.lean ====
section
/-! DEFINITION. What counts as a good state and a safe run, in the terms the statements use (10_state.md R22 to R25). -/

namespace Sys2Proof.Machine

/-- The neutral registers of `IdleA` and `IdleB` (R22, R23). -/
def Neutral (s : State) : Prop :=
  s.hasCommand = false ∧ s.command = 0x00#8 ∧ s.hasNumParam = false ∧ s.numParam = 0x0000#16
    ∧ s.paramPos = 0x00#8 ∧ s.colorParam = 0x00000000#32

/-- `IdleA` (R22). -/
def IdleA (s : State) : Prop := s.initialized = false ∧ Neutral s

/-- `IdleB` (R22). -/
def IdleB (s : State) : Prop := s.initialized = true ∧ Neutral s

/-- `LengthA(k)` with the registers R23 gives it, values between digits left out (R116). -/
def LengthA (k : Nat) (s : State) : Prop :=
  s.initialized = false ∧ s.hasCommand = true ∧ s.command = byteI ∧ s.hasNumParam = false
    ∧ s.paramPos.toNat = k ∧ k ≤ 3 ∧ s.colorParam = 0x00000000#32

/-- `NumB(c, k)` with the registers R23 gives it, values between digits left out (R116). -/
def NumB (c : Byte) (k : Nat) (s : State) : Prop :=
  s.initialized = true ∧ s.hasCommand = true ∧ s.command = c
    ∧ (c = byteI ∨ c = byteP ∨ c = byteS ∨ c = byteW) ∧ s.hasNumParam = false
    ∧ s.paramPos.toNat = k ∧ k ≤ 3 ∧ s.colorParam = 0x00000000#32

/-- The index of a PIXEL whose guard has been made is not the pixel count (R23, R99, R100). -/
def GuardKept (k : Nat) (s : State) : Prop :=
  s.params.pixelGuardPoint = .atParamComplete ∨ 0 < k → s.numParam ≠ s.strip.pixelCount

/-- `ColorB(c, k)` with what R23 gives it: the completed numeric parameter at most the count, for PIXEL not the count once its
guard has been made, and the bytes of the colour not yet reached all zero (R25). -/
def ColorB (c : Byte) (k : Nat) (s : State) : Prop :=
  s.initialized = true ∧ s.hasCommand = true ∧ s.command = c
    ∧ (c = byteP ∨ c = byteS) ∧ s.hasNumParam = true ∧ s.paramPos.toNat = k ∧ k ≤ 5
    ∧ s.numParam.toNat ≤ s.strip.pixelCount.toNat ∧ (c = byteP → GuardKept k s)
    ∧ s.colorParam.toNat < 256 ^ ((k + 1) / 2)

/-- The five forms of R22. -/
def ControlForm (s : State) : Prop :=
  IdleA s ∨ IdleB s ∨ (∃ k, LengthA k s) ∨ (∃ c k, NumB c k s) ∨ (∃ c k, ColorB c k s)

/-- The pixel memory and the transmitted frame keep their canonical form. -/
def MemoryForm (s : State) : Prop := s.strip.pixels.wf ∧ s.strip.shown.wf

/-- The reachable-state invariant (R22 to R25). -/
def Inv (s : State) : Prop := ControlForm s ∧ MemoryForm s

/-- The value a digit field's bytes spell, most significant digit first (30_encoding.md R61, R62). -/
def fieldValue (bs : List Byte) : Nat := bs.foldl (fun v b => 16 * v + (hexVal b).toNat) 0

/-- The clock value of the last of these arrivals. -/
def lastNow (as : List Arrival) (now : U32) : U32 := as.foldl (fun _ a => a.now) now

/-- The state after the arrivals `as` have been taken from the input and nothing else has happened; `rest` still waits. -/
def fed (as rest : List Arrival) (s : State) : State :=
  { s with input := rest, now := lastNow as s.now }

/-- The VERSION report's event (60_exceptions.md R130). -/
def versionEvent (p : Params) : Event := .diag (.version p.programName p.buildDate p.versionString)

/-- A byte of `0-9`, `A-F` or `a-f` (30_encoding.md R58). -/
def IsHexByte (b : Byte) : Prop := isDecByte b = true ∨ isUcByte b = true ∨ isLcByte b = true

/-- `n` steps, stopping at the first refusal: `Host.Core.run` of this machine, with its own types written out. -/
def runSteps : Nat → State → Result
  | 0, s => .next s
  | n + 1, s =>
    match step s with
    | .next t => runSteps n t
    | .refused r => .refused r

/-- A state from which no step, however many are taken, stops. -/
def SafeRun (s : State) : Prop := ∀ n, ∃ t, runSteps n s = .next t

end Sys2Proof.Machine
end

