-- ==== Sys2Proof/Certificates/Slice0/Obligations.lean ====
section
/-! DEFINITION. The statements for the provers. "R<n>" is a rule of spec/, "D<n>" a decision of
spec/92_eei_decisions.md, "U<n>" a row of spec/93_implementation_defined.md, "log n" notes/assumptions/n.md. -/

open Sys2Proof Sys2Proof.Machine

/-! ### Encoding -/

/-- Every well-formed instruction of all 28 rows is decoded back from its byte, in its row's mode (R54, R56 to R58, R67). -/
def Obligations.DecodeEncodeRoundTrip : Prop :=
  ∀ (i : Instr) (rest : List Byte), i.wf = true → decode i.mode (encode i :: rest) = .ok (i, rest)

/-- The decoder reads what the opcode table reads: in each mode the first row in rising priority that takes the byte (R67).
-/
def Obligations.DecodeMatchesOpcodeTable : Prop :=
  ∀ m, m = .topA ∨ m = .topB ∨ m = .param →
    (opcodeTable.filter fun r => r.mode = m).Pairwise (fun r q => r.priority < q.priority)
      ∧ ∀ b, ∃ r, lookupRow m b = some r ∧ r.read b = decodeByte m b

/-- No byte is illegal (R54, R63): in every mode each of the 256 bytes is one well-formed instruction, whose byte it is. -/
def Obligations.EveryByteDecodes : Prop :=
  ∀ (m : Mode) (b : Byte) (rest : List Byte),
    ∃ i, decode m (b :: rest) = .ok (i, rest) ∧ i.wf = true ∧ encode i = b

/-- Bytes written out from the spec's tables (R53, R56 to R59), one or more of each family. -/
def Obligations.SpecBytesDecode : Prop :=
  decode .topA [0b01001001#8] = .ok (.initA, [])
    ∧ decode .topA [0b01010110#8] = .ok (.versionA, [])
    ∧ decode .topA [0b01001100#8] = .ok (.ignoreA 0x4C#8, [])
    ∧ decode .topB [0b01001001#8] = .ok (.initB, [])
    ∧ decode .topB [0b01010000#8] = .ok (.pixel, [])
    ∧ decode .topB [0b01001100#8] = .ok (.latchFrame, [])
    ∧ decode .topB [0b01010011#8] = .ok (.shade, [])
    ∧ decode .topB [0b01010111#8] = .ok (.rawFrame, [])
    ∧ decode .topB [0b01101001#8] = .ok (.unrecognizedB 0x69#8, [])
    ∧ decode .param [0b01001001#8] = .ok (.abort, [])
    ∧ decode .param [0b00111001#8] = .ok (.digitDec 9#4, [])
    ∧ decode .param [0b01000110#8] = .ok (.digitUc 15#4, [])
    ∧ decode .param [0b01100001#8] = .ok (.digitLc 10#4, [])
    ∧ decode .param [0b01101001#8] = .ok (.digitNonhex 0x69#8, [])
    ∧ decode (.paramState .numBLast) [0b00110001#8] = .ok (.completeNumB 0x31#8, [])

/-! ### The step -/

/-- A step runs the decoded instruction (R7, R55): when a byte waits and decodes to `i` in the mode of the state, the step
is `exec i`, with the byte taken from the input and the clock at that byte's value (log 8). -/
def Obligations.StepRunsDecodedInstruction : Prop :=
  ∀ (s : State) (a : Arrival) (rest : List Arrival) (i : Instr),
    s.input = a :: rest → decode (decodeMode s) [a.byte] = .ok (i, []) →
      step s = exec i { s with input := rest, now := a.now }

/-- With no byte waiting a step changes nothing: the model's choice for a step without a byte (log 8), after R144's "It acts
only when a byte arrives". -/
def Obligations.StepHoldsWithoutByte : Prop :=
  ∀ s : State, s.input = [] → step s = .next s

/-- Decode, then execute is `FeedByte` (R71): in every state, reachable or not, the step on a byte answers what the spec's
pseudocode, with its order of tests (R73), answers, with the byte taken from the model's queue and the clock at that byte's
value (log 8). -/
def Obligations.StepIsFeedByte : Prop :=
  ∀ (s : State) (a : Arrival) (rest : List Arrival),
    s.input = a :: rest → step s = feedByte a.byte { s with input := rest, now := a.now }

/-- A digit byte has the effect of the `PARAM_STATE` row whose control state holds (R67; log 13), for all thirteen rows. -/
def Obligations.DigitRunsItsEffectRow : Prop :=
  ∀ (slot : StateSlot) (b : Byte) (s : State), b ≠ byteI → slotHolds slot b s = true →
    exec (decodeParam b) s = exec (effectRow slot b) s

/-- In every state of the invariant with a command pending, some `PARAM_STATE` row names the effect of each digit byte (R67,
R22). -/
def Obligations.EveryDigitHasAnEffectRow : Prop :=
  ∀ (b : Byte) (s : State), Inv s → s.hasCommand = true → b ≠ byteI →
    ∃ slot, slotHolds slot b s = true ∧ exec (decodeParam b) s = exec (effectRow slot b) s

/-! ### Reset, ParserReset and errors -/

/-- Power-on values (R29, which rests on decisions D3 and D4): `IdleA`, and `latchTime` at LATCH_TIME_INIT, whose default is
0 (log 2). -/
def Obligations.PowerOnResetValues : Prop :=
  (∀ s : State, IdleA (powerOnReset s) ∧ (powerOnReset s).latchTime = s.params.latchTimeInit)
    ∧ IdleA State.reset ∧ State.reset.latchTime = 0x00000000#32

/-- Power-on reset leaves the environment, emits nothing and makes no request (R146; log 18). -/
def Obligations.PowerOnResetKeepsEnvironment : Prop :=
  ∀ s : State,
    (powerOnReset s).strip = s.strip ∧ (powerOnReset s).now = s.now ∧ (powerOnReset s).input = s.input
      ∧ (powerOnReset s).events = s.events ∧ (powerOnReset s).params = s.params

/-- `ParserReset()` (R74, R30, decision D24): the neutral registers, everything else kept. -/
def Obligations.ParserResetIsNeutral : Prop :=
  ∀ s : State,
    Neutral (parserReset s)
      ∧ parserReset s =
        { s with
          hasCommand := false
          command := 0x00#8
          hasNumParam := false
          numParam := 0x0000#16
          paramPos := 0x00#8
          colorParam := 0x00000000#32 }

/-- Error entry (R135, R9): the event, then `ParserReset()`; nothing is saved, `initialized` and `latchTime` are unchanged
and the events emitted before stay; the next byte is decoded at top level (R136). -/
def Obligations.RaiseReportsAndResets : Prop :=
  ∀ (d : Diag) (s : State),
    raiseDiag d s = parserReset { s with events := s.events ++ [.diag d] }
      ∧ Neutral (raiseDiag d s) ∧ (raiseDiag d s).initialized = s.initialized
      ∧ (raiseDiag d s).latchTime = s.latchTime ∧ (raiseDiag d s).events = s.events ++ [.diag d]
      ∧ (raiseDiag d s).strip = s.strip ∧ (raiseDiag d s).input = s.input
      ∧ decodeMode (raiseDiag d s) = if s.initialized then .topB else .topA

/-- The status output is the register `initialized` (R26). -/
def Obligations.StatusOutputIsInitialized : Prop :=
  ∀ s : State, isInitialized s = s.initialized

/-! ### Top level -/

/-- INIT_A (R81): the byte 0x49 in mode `TOP_A`; its three writes, no event and nothing else; `IdleA` becomes `LengthA(0)`;
in `LengthA(k)` the same byte is the abort. -/
def Obligations.InitAAccepts : Prop :=
  decodeByte .topA 0x49#8 = .initA
    ∧ (∀ s : State, exec .initA s = .next { s with hasCommand := true, command := 0x49#8, paramPos := 0x00#8 })
    ∧ (∀ s : State, IdleA s → LengthA 0 { s with hasCommand := true, command := 0x49#8, paramPos := 0x00#8 })
    ∧ ∀ (s : State) (k : Nat), LengthA k s → decodeByte (decodeMode s) 0x49#8 = .abort

/-- INIT_B, PIXEL, SHADE and RAW_FRAME (R89, R91, R93, R95): the byte in mode `TOP_B`; its three writes, no event and
nothing else; `IdleB` becomes `NumB(c, 0)`. -/
def Obligations.PhaseBCommandsAccepted : Prop :=
  ∀ (c : Byte) (i : Instr),
    (c = 0x49#8 ∧ i = .initB) ∨ (c = 0x50#8 ∧ i = .pixel) ∨ (c = 0x53#8 ∧ i = .shade)
        ∨ (c = 0x57#8 ∧ i = .rawFrame) →
      decodeByte .topB c = i
        ∧ ∀ s : State,
          exec i s = .next { s with hasCommand := true, command := c, paramPos := 0x00#8 }
            ∧ (IdleB s → NumB c 0 { s with hasCommand := true, command := c, paramPos := 0x00#8 })

/-- VERSION in either phase (R82, R90): one report with the three strings, then the neutral registers; in `IdleA` and
`IdleB` only the event list changes. -/
def Obligations.VersionReports : Prop :=
  ∀ (i : Instr) (s : State), i = .versionA ∨ i = .versionB →
    exec i s = .next (parserReset { s with events := s.events ++ [versionEvent s.params] })
      ∧ (Neutral s → exec i s = .next { s with events := s.events ++ [versionEvent s.params] })

/-- IGNORE_A (R83): every byte but 0x49 and 0x56 in mode `TOP_A` changes nothing and emits nothing. -/
def Obligations.IgnoredByteChangesNothing : Prop :=
  ∀ b : Byte, b ≠ 0x49#8 → b ≠ 0x56#8 →
    decodeByte .topA b = .ignoreA b ∧ ∀ s : State, exec (.ignoreA b) s = .next s

/-- UNRECOGNIZED_B (R94, decision D27): every other byte in mode `TOP_B` resets the parser with no event; in `IdleB` no
register changes. -/
def Obligations.UnrecognizedByteResetsSilently : Prop :=
  ∀ b : Byte, isCommandB b = false →
    decodeByte .topB b = .unrecognizedB b
      ∧ ∀ s : State, exec (.unrecognizedB b) s = .next (parserReset s)
        ∧ (IdleB s → exec (.unrecognizedB b) s = .next s)

/-- ABORT (R72, decision D7): the byte 0x49 with a command pending, in either phase and at every digit position; the
registers become neutral, no event, nothing else changes. -/
def Obligations.AbortDiscardsCommand : Prop :=
  ∀ s : State,
    (s.hasCommand = true → decodeByte (decodeMode s) 0x49#8 = .abort)
      ∧ exec .abort s = .next (parserReset s)
      ∧ (s.initialized = false → IdleA (parserReset s)) ∧ (s.initialized = true → IdleB (parserReset s))

/-- LATCH_FRAME and the latch (R92, R121, R122): the elapsed time, modulo 2^32 (decision D6), strictly above the timeout:
the strip transmits, `latchTime` takes the same sample; else one ELT report and no transmit. That the frame shown is then
the whole buffer (R41) is the model's reading, DEDUCED in log 20. Either way the registers become neutral. -/
def Obligations.LatchFrameTransmitsOrRefuses : Prop :=
  decodeByte .topB 0x4C#8 = .latchFrame
    ∧ ∀ s : State,
      (s.params.latchTimeoutMs.toNat < (s.now - s.latchTime).toNat →
        exec .latchFrame s =
          .next (parserReset
            { s with
              strip := { s.strip with shown := s.strip.pixels }
              events := s.events ++ [.showFrame]
              latchTime := s.now }))
      ∧ ((s.now - s.latchTime).toNat ≤ s.params.latchTimeoutMs.toNat →
        exec .latchFrame s = .next (parserReset { s with events := s.events ++ [.diag .elt] }))

/-! ### Digits and fields -/

/-- HexVal (R111) over all 256 bytes: the three ranges, and 0 for every other byte; in mode `PARAM` every byte but 0x49 is
taken as its nibble. -/
def Obligations.HexValRanges : Prop :=
  ∀ b : Byte,
    (0x30 ≤ b.toNat ∧ b.toNat ≤ 0x39 → (hexVal b).toNat = b.toNat - 0x30)
      ∧ (0x41 ≤ b.toNat ∧ b.toNat ≤ 0x46 → (hexVal b).toNat = b.toNat - 0x37)
      ∧ (0x61 ≤ b.toNat ∧ b.toNat ≤ 0x66 → (hexVal b).toNat = b.toNat - 0x57)
      ∧ (¬(0x30 ≤ b.toNat ∧ b.toNat ≤ 0x39) ∧ ¬(0x41 ≤ b.toNat ∧ b.toNat ≤ 0x46)
          ∧ ¬(0x61 ≤ b.toNat ∧ b.toNat ≤ 0x66) → hexVal b = 0#4)
      ∧ (b ≠ 0x49#8 → ∀ s : State, exec (decodeByte .param b) s = takeDigit (hexVal b) s)

/-- A digit of a numeric field that does not complete it (R84, R96): the effect rows in every state, the digit classes in
`LengthA(k)` and `NumB(c, k)`, k at most 2. The cursor moves on by one, `numParam` takes the digit (its value between digits
is not stated, R116), and nothing else changes. -/
def Obligations.NumericDigitAdvances : Prop :=
  ∀ (i : Instr) (s : State),
    (∃ b, i = .lengthDigitA b ∨ i = .digitBNum b)
        ∨ ((∃ n, i = .digitDec n ∨ i = .digitUc n ∨ i = .digitLc n) ∨ ∃ b, i = .digitNonhex b)
          ∧ (∃ k ≤ 2, LengthA k s ∨ ∃ c, NumB c k s) →
      ∃ v, exec i s = .next { s with numParam := v, paramPos := s.paramPos + 1#8 }

/-- A digit of a colour field that does not complete it (R96): the effect row, and the digit classes in `ColorB(c, k)`, k at
most 4, where the late guard (R100) is not due or passes. The cursor moves on by one, `colorParam` takes the digit (its
value between digits is not stated, R116), and nothing else changes. -/
def Obligations.ColorDigitAdvances : Prop :=
  ∀ (i : Instr) (s : State), (lateGuardDue s = true → s.numParam ≠ s.strip.pixelCount) →
    (∃ b, i = .digitBColor b)
        ∨ ((∃ n, i = .digitDec n ∨ i = .digitUc n ∨ i = .digitLc n) ∨ ∃ b, i = .digitNonhex b)
          ∧ (∃ k ≤ 4, ∃ c, ColorB c k s) →
      ∃ v, exec i s = .next { s with colorParam := v, paramPos := s.paramPos + 1#8 }

/-- The completed numeric value (R61, R115): after four digits from cursor 0 the accumulator holds the number they spell,
most significant first, whatever it held before, and the cursor is at 4. -/
def Obligations.NumericFieldValue : Prop :=
  ∀ (s : State) (b0 b1 b2 b3 : Byte), s.paramPos = 0#8 →
    accumulateNum (hexVal b3) (accumulateNum (hexVal b2) (accumulateNum (hexVal b1) (accumulateNum (hexVal b0) s)))
      = { s with numParam := BitVec.ofNat 16 (fieldValue [b0, b1, b2, b3]), paramPos := 4#8 }

/-- The completed colour (R62, R45, R115): after six digits from cursor 0 the accumulator holds the 24-bit number they
spell, most significant first, bits 31:24 zero, and the cursor is at 6. -/
def Obligations.ColorFieldValue : Prop :=
  ∀ (s : State) (b0 b1 b2 b3 b4 b5 : Byte), s.paramPos = 0#8 →
    accumulateColor (hexVal b5) (accumulateColor (hexVal b4) (accumulateColor (hexVal b3)
        (accumulateColor (hexVal b2) (accumulateColor (hexVal b1) (accumulateColor (hexVal b0) s)))))
      = { s with colorParam := BitVec.ofNat 32 (fieldValue [b0, b1, b2, b3, b4, b5]), paramPos := 6#8 }

/-- Round trip (R117): four digit bytes of any case, each the nibble of a 16-bit value from the top down, spell that value;
six likewise a 24-bit value. -/
def Obligations.HexDigitsRoundTrip : Prop :=
  (∀ (v : U16) (b0 b1 b2 b3 : Byte),
      hexVal b0 = v.extractLsb' 12 4 → hexVal b1 = v.extractLsb' 8 4 → hexVal b2 = v.extractLsb' 4 4 →
      hexVal b3 = v.extractLsb' 0 4 → fieldValue [b0, b1, b2, b3] = v.toNat)
    ∧ (∀ (v : BitVec 24) (b0 b1 b2 b3 b4 b5 : Byte),
      hexVal b0 = v.extractLsb' 20 4 → hexVal b1 = v.extractLsb' 16 4 → hexVal b2 = v.extractLsb' 12 4 →
      hexVal b3 = v.extractLsb' 8 4 → hexVal b4 = v.extractLsb' 4 4 → hexVal b5 = v.extractLsb' 0 4 →
      fieldValue [b0, b1, b2, b3, b4, b5] = v.toNat)
    ∧ ∀ n : Nibble,
      (n ≤ 9#4 → hexVal (0x30#8 + n.setWidth 8) = n)
        ∧ (10#4 ≤ n → hexVal (0x37#8 + n.setWidth 8) = n ∧ hexVal (0x57#8 + n.setWidth 8) = n)

/-! ### Completions -/

/-- COMPLETE_INIT_A (R85, R38, decision D12): the strip is asked for the completed length `v`; a nonzero count reported
makes the decoder initialised and is reported, a zero count leaves it as it was. The pixel buffer is what the free
`Config.pixelsAfterResize` makes of it (the model's choice, log 5); nothing else changes. -/
def Obligations.InitCompletionConfiguresStrip : Prop :=
  ∀ (b : Byte) (s : State) (v : U16) (count : U16),
    v = (accumulateNum (hexVal b) s).numParam → count = stripResize s.params v →
      exec (.completeInitA b) s =
        .next (parserReset
          { s with
            initialized := if count = 0#16 then s.initialized else true
            strip :=
              { s.strip with
                pixelCount := count
                pixels := Memory.ofEntries (Config.pixelsAfterResize v s.strip.pixels) }
            events :=
              s.events
                ++ [.setLength v, .diag (if count = 0#16 then .initFailed else .initOk count)] })

/-- COMPLETE_NUM_B (R97): `numParam` above the count gives ENP, before everything else and for every command; otherwise the
command's own row: re-init, the colour field, the stub, or the unknown command. -/
def Obligations.NumericCompletionChecksCount : Prop :=
  ∀ (b : Byte) (s : State) (v : U16), v = (accumulateNum (hexVal b) s).numParam →
    (s.strip.pixelCount.toNat < v.toNat →
      exec (.completeNumB b) s = .next (parserReset { s with events := s.events ++ [.diag (.enp v s.command)] }))
    ∧ (v.toNat ≤ s.strip.pixelCount.toNat →
      (s.command = 0x49#8 → exec (.completeNumB b) s = exec (.completeReinitB b) s)
      ∧ (s.command = 0x53#8 ∨ s.command = 0x50#8 → exec (.completeNumB b) s = exec (.enterColor b) s)
      ∧ (s.command = 0x57#8 → exec (.completeNumB b) s = exec (.completeRawFrame b) s)
      ∧ (s.command ≠ 0x49#8 → s.command ≠ 0x53#8 → s.command ≠ 0x50#8 → s.command ≠ 0x57#8 →
        exec (.completeNumB b) s = exec (.completeUnknown b) s))

/-- A numeric field that completes within the count: COMPLETE_NUM_B gives a next state for INIT, SHADE and RAW_FRAME, and
for PIXEL with an index below the count (R97 to R101): the report and the neutral registers, or `ColorB(c, 0)`. -/
def Obligations.NumericCompletionWithinCount : Prop :=
  ∀ (b : Byte) (s : State) (v : U16), v = (accumulateNum (hexVal b) s).numParam →
    v.toNat ≤ s.strip.pixelCount.toNat →
    (s.command = 0x49#8 →
      exec (.completeNumB b) s =
        .next (parserReset { s with events := s.events ++ [.diag (.initDone s.strip.pixelCount)] }))
    ∧ (s.command = 0x53#8 ∨ s.command = 0x50#8 ∧ v ≠ s.strip.pixelCount →
      exec (.completeNumB b) s = .next { s with numParam := v, hasNumParam := true, paramPos := 0#8 })
    ∧ (s.command = 0x57#8 →
      exec (.completeNumB b) s = .next (parserReset { s with events := s.events ++ [.diag .rawFrame] }))

/-- COMPLETE_REINIT_B (R98): the report names the strip's count, not `numParam`; the strip is not resized and no SetLength
is emitted; the registers become neutral and nothing else changes. COMPLETE_NUM_B under INIT, within the count, comes to it.
-/
def Obligations.ReinitReportsWithoutResize : Prop :=
  ∀ (b : Byte) (s : State),
    exec (.completeReinitB b) s =
        .next (parserReset { s with events := s.events ++ [.diag (.initDone s.strip.pixelCount)] })
      ∧ (s.command = 0x49#8 → (accumulateNum (hexVal b) s).numParam.toNat ≤ s.strip.pixelCount.toNat →
        exec (.completeNumB b) s = exec (.completeReinitB b) s)

/-- ENTER_COLOR (R99, decision D9): PIXEL's index equal to the count is the error where the guard is made here; otherwise,
for SHADE always, the colour field begins. -/
def Obligations.EnterColorOrGuard : Prop :=
  ∀ (b : Byte) (s : State) (v : U16), v = (accumulateNum (hexVal b) s).numParam →
    (s.command = 0x50#8 ∧ s.params.pixelGuardPoint = .atParamComplete ∧ v = s.strip.pixelCount →
      exec (.enterColor b) s = .next (parserReset { s with events := s.events ++ [.diag (.enpEq v)] }))
    ∧ (¬(s.command = 0x50#8 ∧ s.params.pixelGuardPoint = .atParamComplete ∧ v = s.strip.pixelCount) →
      exec (.enterColor b) s = .next { s with numParam := v, hasNumParam := true, paramPos := 0#8 })

/-- COMPLETE_RAW_FRAME (R101, decision D10): the marker, the neutral registers, no pixel and no transmit. -/
def Obligations.RawFrameIsAStub : Prop :=
  ∀ (b : Byte) (s : State),
    exec (.completeRawFrame b) s = .next (parserReset { s with events := s.events ++ [.diag .rawFrame] })

/-- COMPLETE_UNKNOWN (R102, decision D11, U8; log 12): the report of the command, the neutral registers. -/
def Obligations.UnknownCommandReported : Prop :=
  ∀ (b : Byte) (s : State),
    exec (.completeUnknown b) s = .next (parserReset { s with events := s.events ++ [.diag (.euc s.command)] })

/-- PIXEL_GUARD_LATE (R100, decision D9): an index equal to the count is the error and the byte is not accumulated;
otherwise the byte is the next colour digit, and nothing but `colorParam` and the cursor changes. -/
def Obligations.LatePixelGuard : Prop :=
  ∀ (b : Byte) (s : State),
    (s.numParam = s.strip.pixelCount →
      exec (.pixelGuardLate b) s = .next (parserReset { s with events := s.events ++ [.diag (.enpEq s.numParam)] }))
    ∧ (s.numParam ≠ s.strip.pixelCount →
      exec (.pixelGuardLate b) s =
        .next { s with
          colorParam := (accumulateColor (hexVal b) s).colorParam, paramPos := s.paramPos + 1#8 })

/-- COMPLETE_PIXEL, and COMPLETE_COLOR_B under PIXEL (R103, R104, R40): with the index below the count, one SetPixel event
with the index and the completed colour; the pixel at the index reads that colour and every other one as before; nothing is
transmitted and `latchTime` is unchanged; the registers become neutral and nothing else changes. -/
def Obligations.PixelWritesOneEntry : Prop :=
  ∀ (b : Byte) (i : Instr) (s : State) (c : U32),
    i = .completePixel b ∨ i = .completeColorB b ∧ s.command = 0x50#8 →
    c = (accumulateColor (hexVal b) s).colorParam → s.numParam.toNat < s.strip.pixelCount.toNat →
      ∃ m : Memory,
        exec i s =
          .next (parserReset
            { s with strip := { s.strip with pixels := m }, events := s.events ++ [.setPixel s.numParam c] })
        ∧ ∀ a, m.read a = if a = s.numParam.toNat then some c else s.strip.pixels.read a

/-- COMPLETE_SHADE, and COMPLETE_COLOR_B under SHADE (R103, R105, R121, decisions D6 and D15): with `numParam` at most the
count, the SetPixel events of indices 0 to `numParam`-1 in rising order and then the latch's Show or ELT; the pixels below
`numParam` read the completed colour and the others as before; `latchTime` changes only with a transmit; the registers
become neutral and nothing else changes. That a transmit shows the whole buffer as filled rests on decision D20 and on the
model's reading of Show, DEDUCED in log 20. -/
def Obligations.ShadeFillsAndLatches : Prop :=
  ∀ (b : Byte) (i : Instr) (s : State) (c : U32) (shows : Bool),
    i = .completeShade b ∨ i = .completeColorB b ∧ s.command = 0x53#8 →
    c = (accumulateColor (hexVal b) s).colorParam → s.numParam.toNat ≤ s.strip.pixelCount.toNat →
    shows = decide (s.params.latchTimeoutMs.toNat < (s.now - s.latchTime).toNat) →
      ∃ m : Memory,
        exec i s =
          .next (parserReset
            { s with
              strip := { s.strip with pixels := m, shown := if shows then m else s.strip.shown }
              events :=
                s.events ++ (List.range s.numParam.toNat).map (fun k => .setPixel (BitVec.ofNat 16 k) c)
                  ++ [if shows then .showFrame else .diag .elt]
              latchTime := if shows then s.now else s.latchTime })
        ∧ ∀ a, m.read a = if a < s.numParam.toNat then some c else s.strip.pixels.read a

/-- Where a colour completion stops, in states no run reaches (U6, U9; log 10, log 11): an index not below the count would
reach the strip, or the command is neither PIXEL nor SHADE. -/
def Obligations.ColorCompletionStopsByName : Prop :=
  ∀ (b : Byte) (s : State),
    (s.strip.pixelCount.toNat ≤ s.numParam.toNat →
      exec (.completePixel b) s = .refused (.pixelIndexOutOfRange s.numParam))
    ∧ (s.strip.pixelCount.toNat < s.numParam.toNat →
      exec (.completeShade b) s = .refused (.pixelIndexOutOfRange s.strip.pixelCount))
    ∧ (s.command ≠ 0x50#8 → s.command ≠ 0x53#8 →
      exec (.completeColorB b) s = .refused (.noColorContinuation s.command))

/-! ### Invariants and whole-machine rules -/

/-- The invariant holds at reset, and after a power-on reset of any state whose pixel memories are in canonical form (R22 to
R25, R29). -/
def Obligations.InvHoldsAtReset : Prop :=
  Inv State.reset ∧ ∀ s : State, MemoryForm s → Inv (powerOnReset s)

/-- Every step keeps the invariant (R22 to R25): the control state is one of the five forms, the colour's top byte is zero,
a colour field's number is at most the pixel count. -/
def Obligations.StepKeepsInv : Prop :=
  ∀ s t : State, Inv s → step s = .next t → Inv t

/-- No byte traps and every step ends (R63, R78, R128): from a state of the invariant every step gives a next state, and so
does every run of steps. -/
def Obligations.RunNeverStops : Prop :=
  ∀ s : State, Inv s → SafeRun s

/-- Every step keeps the pixel memories in canonical form, in reachable states and others. -/
def Obligations.StepKeepsMemoryForm : Prop :=
  ∀ s t : State, MemoryForm s → step s = .next t → MemoryForm t

/-- `initialized` is never cleared by a step, and only a completed Phase A INIT that the strip answers with a nonzero count
sets it (R12, R147). -/
def Obligations.InitializedSetOnlyByInit : Prop :=
  ∀ s t : State, step s = .next t →
    (s.initialized = true → t.initialized = true)
      ∧ (s.initialized = false → t.initialized = true →
        s.hasCommand = true ∧ t.strip.pixelCount ≠ 0#16
          ∧ ∃ v, t.events = s.events ++ [.setLength v, .diag (.initOk t.strip.pixelCount)])

/-- `latchTime` is written only by a step that transmits, with that step's clock sample, when more than the timeout had
passed, modulo 2^32 (R122, decision D6); and a step that transmits does write it. The frame shown is then the whole buffer
and otherwise as before, which is the model's reading of Show, DEDUCED in log 20, in the order of decision D20. -/
def Obligations.LatchTimeWrittenOnlyByTransmit : Prop :=
  ∀ s t : State, step s = .next t →
    ∃ es, t.events = s.events ++ es
      ∧ (.showFrame ∈ es →
        t.latchTime = t.now ∧ s.params.latchTimeoutMs.toNat < (t.now - s.latchTime).toNat
          ∧ t.strip.shown = t.strip.pixels)
      ∧ (.showFrame ∉ es → t.latchTime = s.latchTime ∧ t.strip.shown = s.strip.shown)

/-- A step only adds events, at most 0xFFFF + 1 of them (R76), at most one of them a report (R134). -/
def Obligations.StepEventBounds : Prop :=
  ∀ s t : State, step s = .next t →
    ∃ es, t.events = s.events ++ es ∧ es.length ≤ 0xFFFF + 1 ∧ (diagsOf es).length ≤ 1

/-- The decoder passes only valid indices to the strip (R37), and from a state of the invariant only colours of 24 bits
(R25, R42). -/
def Obligations.PixelRequestsValid : Prop :=
  ∀ s t : State, step s = .next t →
    ∃ es, t.events = s.events ++ es
      ∧ ∀ (i : U16) (c : U32), .setPixel i c ∈ es →
        i.toNat < s.strip.pixelCount.toNat ∧ (Inv s → c.toNat < 2 ^ 24)

/-- In Phase A the only strip request is SetLength, and no latch happens (R87): `latchTime` and the frame shown (the model's
field, log 20) stay. -/
def Obligations.PhaseAOnlySetsLength : Prop :=
  ∀ s t : State, s.initialized = false → step s = .next t →
    t.latchTime = s.latchTime ∧ t.strip.shown = s.strip.shown
      ∧ ∃ es, t.events = s.events ++ es ∧ .showFrame ∉ es ∧ ∀ i c, .setPixel i c ∉ es

/-- In Phase B the strip is never resized (R106): no SetLength, and the pixel count stays. -/
def Obligations.PhaseBNeverResizes : Prop :=
  ∀ s t : State, s.initialized = true → step s = .next t →
    t.strip.pixelCount = s.strip.pixelCount ∧ ∃ es, t.events = s.events ++ es ∧ ∀ v, .setLength v ∉ es

/-- A step never changes the parameters (R27), and takes from the input exactly the byte it feeds (R52, R149; log 1, log 8).
-/
def Obligations.StepKeepsParametersAndTakesOneByte : Prop :=
  ∀ s t : State, step s = .next t →
    t.params = s.params ∧ t.input = s.input.tail ∧ t.now = lastNow (s.input.take 1) s.now

/-! ### Runs over whole messages -/

/-- Noise before INIT (R86): from `IdleA` any byte sequence without 'I' leaves every register and the strip as they are, and
emits one VERSION report for each 'V' and nothing else. The bytes are taken from the model's queue, each with its clock
value (log 8). -/
def Obligations.UninitialisedNoiseIgnored : Prop :=
  ∀ (s : State) (as rest : List Arrival), IdleA s → s.input = as ++ rest → (∀ a ∈ as, a.byte ≠ byteI) →
    runSteps as.length s =
      .next { fed as rest s with
        events := s.events ++ List.replicate (as.countP fun a => a.byte == byteV) (versionEvent s.params) }

/-- Leftover digits (R153): in `IdleB` a sequence of hex digit bytes has no effect but to be taken from the model's queue,
with the clock at the last one's value (log 8). -/
def Obligations.LeftoverDigitsDropped : Prop :=
  ∀ (s : State) (as rest : List Arrival), IdleB s → s.input = as ++ rest → (∀ a ∈ as, IsHexByte a.byte) →
    runSteps as.length s = .next (fed as rest s)

/-- A whole INIT message in Phase A (R60, R81, R84, R85): 'I' and four bytes, none of them 'I', whatever else they are (a
non-hex byte, a command letter too, is the digit 0: decision D8, log 15), ask the strip for the length they spell; the
decoder is in `IdleB` or again in `IdleA` as the strip answers (decision D12). The pixel buffer is the free
`Config.pixelsAfterResize`'s (log 5); the bytes come from the model's queue (log 8). -/
def Obligations.InitMessageConfigures : Prop :=
  ∀ (s : State) (as rest : List Arrival) (digits : List Byte) (v count : U16),
    IdleA s → s.input = as ++ rest → as.map Arrival.byte = byteI :: digits → digits.length = 4 →
    byteI ∉ digits → v = BitVec.ofNat 16 (fieldValue digits) → count = stripResize s.params v →
      runSteps 5 s =
        .next { fed as rest s with
          initialized := decide (count ≠ 0#16)
          strip :=
            { s.strip with
              pixelCount := count
              pixels := Memory.ofEntries (Config.pixelsAfterResize v s.strip.pixels) }
          events :=
            s.events ++ [.setLength v, .diag (if count = 0#16 then .initFailed else .initOk count)] }

/-- A whole PIXEL message (R60, R91, R97, R104): 'P', four index bytes and six colour bytes, none of them 'I' (a non-hex
byte, a command letter too, is the digit 0: decision D8, log 15), with the index they spell below the count, write that one
pixel and leave the decoder in `IdleB`, for either guard point (decision D9). The bytes come from the model's queue (log 8).
-/
def Obligations.PixelMessageWritesPixel : Prop :=
  ∀ (s : State) (as rest : List Arrival) (index color : List Byte) (v : U16) (c : U32),
    IdleB s → s.input = as ++ rest → as.map Arrival.byte = byteP :: index ++ color → index.length = 4 →
    color.length = 6 → byteI ∉ index → byteI ∉ color → v = BitVec.ofNat 16 (fieldValue index) →
    c = BitVec.ofNat 32 (fieldValue color) → v.toNat < s.strip.pixelCount.toNat →
      runSteps 11 s =
        .next { fed as rest s with
          strip := { s.strip with pixels := s.strip.pixels.write v.toNat c }
          events := s.events ++ [.setPixel v c] }

/-- A whole SHADE message (R60, R93, R97, R105, R121): 'S', four count bytes and six colour bytes, none of them 'I' (a
non-hex byte, a command letter too, is the digit 0: decision D8, log 15), with the count they spell at most the pixel count,
fill that many pixels from index 0, in rising order (decision D15), and latch with the clock of the last byte (decision D6).
That a transmit shows the whole buffer as filled rests on decision D20 and on the model's reading of Show, DEDUCED in log
20; the bytes come from the model's queue (log 8). -/
def Obligations.ShadeMessageFills : Prop :=
  ∀ (s : State) (as rest : List Arrival) (number color : List Byte) (v : U16) (c : U32) (now : U32) (shows : Bool),
    IdleB s → s.input = as ++ rest → as.map Arrival.byte = byteS :: number ++ color → number.length = 4 →
    color.length = 6 → byteI ∉ number → byteI ∉ color → v = BitVec.ofNat 16 (fieldValue number) →
    c = BitVec.ofNat 32 (fieldValue color) → v.toNat ≤ s.strip.pixelCount.toNat → now = lastNow as s.now →
    shows = decide (s.params.latchTimeoutMs.toNat < (now - s.latchTime).toNat) →
      ∃ m : Memory,
        runSteps 11 s =
          .next { fed as rest s with
            strip := { s.strip with pixels := m, shown := if shows then m else s.strip.shown }
            events :=
              s.events ++ (List.range v.toNat).map (fun k => .setPixel (BitVec.ofNat 16 k) c)
                ++ [if shows then .showFrame else .diag .elt]
            latchTime := if shows then now else s.latchTime }
        ∧ ∀ a, m.read a = if a < v.toNat then some c else s.strip.pixels.read a

/-- The guard point does not show on a full PIXEL message (R156): whatever index the four bytes spell (a non-hex byte is the
digit 0: decision D8, log 15), with six hex digits of colour both settings (decision D9) give the same events and the same
end state. The bytes come from the model's queue (log 8). -/
def Obligations.GuardPointsAgreeOnFullMessage : Prop :=
  ∀ (s : State) (as rest : List Arrival) (index color : List Byte),
    IdleB s → s.input = as ++ rest → as.map Arrival.byte = byteP :: index ++ color → index.length = 4 →
    color.length = 6 → byteI ∉ index → (∀ b ∈ color, IsHexByte b) →
      ∃ t : State,
        runSteps 11 { s with params := { s.params with pixelGuardPoint := .atParamComplete } } =
          .next { t with params := { s.params with pixelGuardPoint := .atParamComplete } }
        ∧ runSteps 11 { s with params := { s.params with pixelGuardPoint := .atFirstColorByte } } =
          .next { t with params := { s.params with pixelGuardPoint := .atFirstColorByte } }

/-- Two `L` bytes with too little time between them, modulo 2^32 (R92, R121, R122, R125, decision D6): the first transmits
and is recorded, the second is refused, and its request is dropped. That the frame shown is the whole buffer is the model's
reading of Show, DEDUCED in log 20; the bytes come from the model's queue (log 8). -/
def Obligations.SecondLatchTooSoonRefused : Prop :=
  ∀ (s : State) (now1 now2 : U32) (rest : List Arrival), IdleB s →
    s.input = ⟨byteL, now1⟩ :: ⟨byteL, now2⟩ :: rest →
    s.params.latchTimeoutMs.toNat < (now1 - s.latchTime).toNat →
    (now2 - now1).toNat ≤ s.params.latchTimeoutMs.toNat →
      runSteps 2 s =
        .next { s with
          input := rest
          now := now2
          strip := { s.strip with shown := s.strip.pixels }
          events := s.events ++ [.showFrame, .diag .elt]
          latchTime := now1 }

/-! ### The status channel -/

/-- The lines of the status channel (R130, R131): the literal text and the order of the fields for each of the nine kinds,
with what DIAG_RENDER leaves open as free functions (log 16); and the codes 1 to 9 (decision D26). -/
def Obligations.DiagnosticLines : Prop :=
  (∀ n : U16, diagText (.initOk n) = [0x49#8, 0x6E#8, 0x69#8, 0x74#8, 0x20#8] ++ Config.hexText16 n)
    ∧ diagText .initFailed
      = [0x49#8, 0x6E#8, 0x69#8, 0x74#8, 0x20#8, 0x66#8, 0x61#8, 0x69#8, 0x6C#8, 0x65#8, 0x64#8]
    ∧ (∀ p d v, diagText (.version p d v) = p ++ [0x3A#8, 0x20#8] ++ d ++ [0x20#8] ++ v)
    ∧ (∀ n : U16,
      diagText (.initDone n)
        = [0x49#8, 0x6E#8, 0x69#8, 0x74#8, 0x20#8, 0x64#8, 0x6F#8, 0x6E#8, 0x65#8, 0x20#8] ++ Config.hexText16 n)
    ∧ (∀ c : Byte, diagText (.euc c) = [0x65#8, 0x75#8, 0x63#8, 0x3A#8] ++ Config.hexText8 c)
    ∧ (∀ (n : U16) (c : Byte),
      diagText (.enp n c)
        = [0x65#8, 0x6E#8, 0x70#8, 0x3A#8] ++ Config.hexText16 n ++ [0x2C#8, 0x63#8, 0x3A#8] ++ Config.hexText8 c)
    ∧ (∀ n : U16, diagText (.enpEq n) = [0x65#8, 0x6E#8, 0x70#8, 0x3D#8, 0x3A#8] ++ Config.enpEqText n)
    ∧ diagText .elt = [0x65#8, 0x6C#8, 0x74#8]
    ∧ diagText .rawFrame
      = [0x70#8, 0x72#8, 0x6F#8, 0x63#8, 0x65#8, 0x73#8, 0x73#8, 0x52#8, 0x61#8, 0x77#8, 0x46#8, 0x72#8, 0x61#8,
        0x6D#8, 0x65#8]
    ∧ (∀ d : Diag, renderDiag d = diagText d ++ Config.lineEnd)
    ∧ ∀ (n : U16) (c : Byte) (p d v : List Byte),
      [Diag.initOk n, .initFailed, .version p d v, .initDone n, .euc c, .enp n c, .enpEq n, .elt, .rawFrame].map diagCode
        = [1, 2, 3, 4, 5, 6, 7, 8, 9]

/-- The status channel receives the lines in the order of the reports, one line a report (R128, R130, 20_memory.md R43):
adding events adds their lines and nothing else. -/
def Obligations.StatusTextFollowsReports : Prop :=
  ∀ s t : State, step s = .next t →
    ∃ d, (d = [] ∨ ∃ x, d = [x]) ∧ statusText t = statusText s ++ d.flatMap renderDiag
      ∧ diagsOf t.events = diagsOf s.events ++ d
end

