-- ==== Sys2Proof/Laws/Memory.lean ====
section
/-! SUPPORT. The laws of the pixel memory: read after write, and every memory operation keeps the canonical form. -/

namespace Sys2Proof.Machine

@[simp] theorem Memory.read_nil (a : Nat) : Memory.read [] a = none := rfl

theorem Memory.read_write_same (m : Memory) (a : Nat) (c : U32) : (m.write a c).read a = some c := by
  induction m with
  | nil => simp [Memory.write, Memory.read]
  | cons e rest ih =>
    obtain ⟨k, v⟩ := e
    simp only [Memory.write]
    split
    · simp [Memory.read]
    · split
      · simp [Memory.read]
      · rename_i h; simp [Memory.read, Ne.symm h, ih]

theorem Memory.read_write_other (m : Memory) {a b : Nat} (c : U32) (h : b ≠ a) :
    (m.write a c).read b = m.read b := by
  induction m with
  | nil => simp [Memory.write, Memory.read, Ne.symm h]
  | cons e rest ih =>
    obtain ⟨k, v⟩ := e
    simp only [Memory.write]
    split
    · simp [Memory.read, Ne.symm h]
    · split
      · rename_i hk; subst hk; simp [Memory.read, Ne.symm h]
      · simp [Memory.read, ih]

/-- Every entry of a written memory is the one written or was there before. -/
theorem Memory.mem_write {m : Memory} {a : Nat} {c : U32} {e : Nat × U32} (h : e ∈ m.write a c) :
    e = (a, c) ∨ e ∈ m := by
  induction m with
  | nil => simpa [Memory.write] using h
  | cons f rest ih =>
    obtain ⟨k, v⟩ := f
    simp only [Memory.write] at h
    split at h
    · simpa using h
    · split at h
      · rcases List.mem_cons.1 h with h | h
        · exact .inl h
        · exact .inr (List.mem_cons_of_mem _ h)
      · rcases List.mem_cons.1 h with h | h
        · exact .inr (by simp [h])
        · exact (ih h).imp id (List.mem_cons_of_mem _)

theorem Memory.write_wf {m : Memory} {a : Nat} (c : U32) (h : m.wf) (ha : a < 2 ^ 16) : (m.write a c).wf := by
  refine ⟨?_, fun e he => ?_⟩
  · have hp := h.1
    clear h
    induction m with
    | nil => simp [Memory.write]
    | cons f rest ih =>
      obtain ⟨k, v⟩ := f
      have hr := (List.pairwise_cons.1 hp).2
      have hk := (List.pairwise_cons.1 hp).1
      simp only [Memory.write]
      split
      · rename_i hlt
        refine List.pairwise_cons.2 ⟨fun e he => ?_, hp⟩
        rcases List.mem_cons.1 he with rfl | he
        · exact hlt
        · exact lt_trans hlt (hk e he)
      · split
        · rename_i heq
          subst heq
          exact List.pairwise_cons.2 ⟨hk, hr⟩
        · rename_i hnlt hne
          refine List.pairwise_cons.2 ⟨fun e he => ?_, ih hr⟩
          rcases Memory.mem_write he with rfl | he
          · show k < a
            omega
          · exact hk e he
  · rcases Memory.mem_write he with rfl | he
    · exact ha
    · exact h.2 e he

theorem Memory.foldl_write_wf (l : List (U16 × U32)) {m : Memory} (h : m.wf) :
    Memory.wf (l.foldl (fun m e => m.write e.1.toNat e.2) m) := by
  induction l generalizing m with
  | nil => exact h
  | cons e rest ih => exact ih (Memory.write_wf _ h e.1.isLt)

theorem Memory.nil_wf : Memory.wf [] := by simp [Memory.wf]

theorem Memory.ofEntries_wf (l : List (U16 × U32)) : (Memory.ofEntries l).wf :=
  Memory.foldl_write_wf l Memory.nil_wf

/-- The memory of the machine at reset is in canonical form. -/
theorem reset_pixels_wf : State.reset.strip.pixels.wf := Memory.nil_wf

end Sys2Proof.Machine
end

