-- ==== Sys2Proof/Laws/State.lean ====
section
/-! SUPPORT. What each state update leaves in each field: one lemma a field and an update, true by `rfl`. -/

namespace Sys2Proof.Machine

/-! ### `emit` -/

@[simp] theorem emit_initialized (e : Event) (s : State) : (emit e s).initialized = s.initialized := rfl
@[simp] theorem emit_hasCommand (e : Event) (s : State) : (emit e s).hasCommand = s.hasCommand := rfl
@[simp] theorem emit_command (e : Event) (s : State) : (emit e s).command = s.command := rfl
@[simp] theorem emit_hasNumParam (e : Event) (s : State) : (emit e s).hasNumParam = s.hasNumParam := rfl
@[simp] theorem emit_numParam (e : Event) (s : State) : (emit e s).numParam = s.numParam := rfl
@[simp] theorem emit_paramPos (e : Event) (s : State) : (emit e s).paramPos = s.paramPos := rfl
@[simp] theorem emit_colorParam (e : Event) (s : State) : (emit e s).colorParam = s.colorParam := rfl
@[simp] theorem emit_latchTime (e : Event) (s : State) : (emit e s).latchTime = s.latchTime := rfl
@[simp] theorem emit_strip (e : Event) (s : State) : (emit e s).strip = s.strip := rfl
@[simp] theorem emit_now (e : Event) (s : State) : (emit e s).now = s.now := rfl
@[simp] theorem emit_input (e : Event) (s : State) : (emit e s).input = s.input := rfl
@[simp] theorem emit_events (e : Event) (s : State) : (emit e s).events = s.events ++ [e] := rfl
@[simp] theorem emit_params (e : Event) (s : State) : (emit e s).params = s.params := rfl

/-! ### `parserReset` -/

@[simp] theorem parserReset_initialized (s : State) : (parserReset s).initialized = s.initialized := rfl
@[simp] theorem parserReset_hasCommand (s : State) : (parserReset s).hasCommand = false := rfl
@[simp] theorem parserReset_command (s : State) : (parserReset s).command = 0x00#8 := rfl
@[simp] theorem parserReset_hasNumParam (s : State) : (parserReset s).hasNumParam = false := rfl
@[simp] theorem parserReset_numParam (s : State) : (parserReset s).numParam = 0x0000#16 := rfl
@[simp] theorem parserReset_paramPos (s : State) : (parserReset s).paramPos = 0x00#8 := rfl
@[simp] theorem parserReset_colorParam (s : State) : (parserReset s).colorParam = 0x00000000#32 := rfl
@[simp] theorem parserReset_latchTime (s : State) : (parserReset s).latchTime = s.latchTime := rfl
@[simp] theorem parserReset_strip (s : State) : (parserReset s).strip = s.strip := rfl
@[simp] theorem parserReset_now (s : State) : (parserReset s).now = s.now := rfl
@[simp] theorem parserReset_input (s : State) : (parserReset s).input = s.input := rfl
@[simp] theorem parserReset_events (s : State) : (parserReset s).events = s.events := rfl
@[simp] theorem parserReset_params (s : State) : (parserReset s).params = s.params := rfl

/-! ### `raiseDiag` -/

@[simp] theorem raiseDiag_initialized (d : Diag) (s : State) : (raiseDiag d s).initialized = s.initialized := rfl
@[simp] theorem raiseDiag_hasCommand (d : Diag) (s : State) : (raiseDiag d s).hasCommand = false := rfl
@[simp] theorem raiseDiag_command (d : Diag) (s : State) : (raiseDiag d s).command = 0x00#8 := rfl
@[simp] theorem raiseDiag_hasNumParam (d : Diag) (s : State) : (raiseDiag d s).hasNumParam = false := rfl
@[simp] theorem raiseDiag_numParam (d : Diag) (s : State) : (raiseDiag d s).numParam = 0x0000#16 := rfl
@[simp] theorem raiseDiag_paramPos (d : Diag) (s : State) : (raiseDiag d s).paramPos = 0x00#8 := rfl
@[simp] theorem raiseDiag_colorParam (d : Diag) (s : State) : (raiseDiag d s).colorParam = 0x00000000#32 := rfl
@[simp] theorem raiseDiag_latchTime (d : Diag) (s : State) : (raiseDiag d s).latchTime = s.latchTime := rfl
@[simp] theorem raiseDiag_strip (d : Diag) (s : State) : (raiseDiag d s).strip = s.strip := rfl
@[simp] theorem raiseDiag_now (d : Diag) (s : State) : (raiseDiag d s).now = s.now := rfl
@[simp] theorem raiseDiag_input (d : Diag) (s : State) : (raiseDiag d s).input = s.input := rfl
@[simp] theorem raiseDiag_events (d : Diag) (s : State) : (raiseDiag d s).events = s.events ++ [.diag d] := rfl
@[simp] theorem raiseDiag_params (d : Diag) (s : State) : (raiseDiag d s).params = s.params := rfl

/-! ### `stripSetLength` -/

@[simp] theorem stripSetLength_initialized (n : U16) (s : State) :
    (stripSetLength n s).initialized = s.initialized := rfl
@[simp] theorem stripSetLength_hasCommand (n : U16) (s : State) : (stripSetLength n s).hasCommand = s.hasCommand := rfl
@[simp] theorem stripSetLength_command (n : U16) (s : State) : (stripSetLength n s).command = s.command := rfl
@[simp] theorem stripSetLength_hasNumParam (n : U16) (s : State) :
    (stripSetLength n s).hasNumParam = s.hasNumParam := rfl
@[simp] theorem stripSetLength_numParam (n : U16) (s : State) : (stripSetLength n s).numParam = s.numParam := rfl
@[simp] theorem stripSetLength_paramPos (n : U16) (s : State) : (stripSetLength n s).paramPos = s.paramPos := rfl
@[simp] theorem stripSetLength_colorParam (n : U16) (s : State) : (stripSetLength n s).colorParam = s.colorParam := rfl
@[simp] theorem stripSetLength_latchTime (n : U16) (s : State) : (stripSetLength n s).latchTime = s.latchTime := rfl
@[simp] theorem stripSetLength_strip (n : U16) (s : State) :
    (stripSetLength n s).strip = 
      { s.strip with
        pixelCount := stripResize s.params n
        pixels := Memory.ofEntries (Config.pixelsAfterResize n s.strip.pixels) } := rfl
@[simp] theorem stripSetLength_now (n : U16) (s : State) : (stripSetLength n s).now = s.now := rfl
@[simp] theorem stripSetLength_input (n : U16) (s : State) : (stripSetLength n s).input = s.input := rfl
@[simp] theorem stripSetLength_events (n : U16) (s : State) :
    (stripSetLength n s).events = s.events ++ [.setLength n] := rfl
@[simp] theorem stripSetLength_params (n : U16) (s : State) : (stripSetLength n s).params = s.params := rfl

/-! ### `stripSetPixel` -/

@[simp] theorem stripSetPixel_initialized (i : U16) (c : U32) (s : State) :
    (stripSetPixel i c s).initialized = s.initialized := rfl
@[simp] theorem stripSetPixel_hasCommand (i : U16) (c : U32) (s : State) :
    (stripSetPixel i c s).hasCommand = s.hasCommand := rfl
@[simp] theorem stripSetPixel_command (i : U16) (c : U32) (s : State) : (stripSetPixel i c s).command = s.command := rfl
@[simp] theorem stripSetPixel_hasNumParam (i : U16) (c : U32) (s : State) :
    (stripSetPixel i c s).hasNumParam = s.hasNumParam := rfl
@[simp] theorem stripSetPixel_numParam (i : U16) (c : U32) (s : State) :
    (stripSetPixel i c s).numParam = s.numParam := rfl
@[simp] theorem stripSetPixel_paramPos (i : U16) (c : U32) (s : State) :
    (stripSetPixel i c s).paramPos = s.paramPos := rfl
@[simp] theorem stripSetPixel_colorParam (i : U16) (c : U32) (s : State) :
    (stripSetPixel i c s).colorParam = s.colorParam := rfl
@[simp] theorem stripSetPixel_latchTime (i : U16) (c : U32) (s : State) :
    (stripSetPixel i c s).latchTime = s.latchTime := rfl
@[simp] theorem stripSetPixel_strip (i : U16) (c : U32) (s : State) :
    (stripSetPixel i c s).strip = { s.strip with pixels := s.strip.pixels.write i.toNat c } := rfl
@[simp] theorem stripSetPixel_now (i : U16) (c : U32) (s : State) : (stripSetPixel i c s).now = s.now := rfl
@[simp] theorem stripSetPixel_input (i : U16) (c : U32) (s : State) : (stripSetPixel i c s).input = s.input := rfl
@[simp] theorem stripSetPixel_events (i : U16) (c : U32) (s : State) :
    (stripSetPixel i c s).events = s.events ++ [.setPixel i c] := rfl
@[simp] theorem stripSetPixel_params (i : U16) (c : U32) (s : State) : (stripSetPixel i c s).params = s.params := rfl

/-! ### `stripShow` -/

@[simp] theorem stripShow_initialized (s : State) : (stripShow s).initialized = s.initialized := rfl
@[simp] theorem stripShow_hasCommand (s : State) : (stripShow s).hasCommand = s.hasCommand := rfl
@[simp] theorem stripShow_command (s : State) : (stripShow s).command = s.command := rfl
@[simp] theorem stripShow_hasNumParam (s : State) : (stripShow s).hasNumParam = s.hasNumParam := rfl
@[simp] theorem stripShow_numParam (s : State) : (stripShow s).numParam = s.numParam := rfl
@[simp] theorem stripShow_paramPos (s : State) : (stripShow s).paramPos = s.paramPos := rfl
@[simp] theorem stripShow_colorParam (s : State) : (stripShow s).colorParam = s.colorParam := rfl
@[simp] theorem stripShow_latchTime (s : State) : (stripShow s).latchTime = s.latchTime := rfl
@[simp] theorem stripShow_strip (s : State) : (stripShow s).strip = { s.strip with shown := s.strip.pixels } := rfl
@[simp] theorem stripShow_now (s : State) : (stripShow s).now = s.now := rfl
@[simp] theorem stripShow_input (s : State) : (stripShow s).input = s.input := rfl
@[simp] theorem stripShow_events (s : State) : (stripShow s).events = s.events ++ [.showFrame] := rfl
@[simp] theorem stripShow_params (s : State) : (stripShow s).params = s.params := rfl

/-! ### `acceptCommand` -/

@[simp] theorem acceptCommand_initialized (b : Byte) (s : State) :
    (acceptCommand b s).initialized = s.initialized := rfl
@[simp] theorem acceptCommand_hasCommand (b : Byte) (s : State) : (acceptCommand b s).hasCommand = true := rfl
@[simp] theorem acceptCommand_command (b : Byte) (s : State) : (acceptCommand b s).command = b := rfl
@[simp] theorem acceptCommand_hasNumParam (b : Byte) (s : State) :
    (acceptCommand b s).hasNumParam = s.hasNumParam := rfl
@[simp] theorem acceptCommand_numParam (b : Byte) (s : State) : (acceptCommand b s).numParam = s.numParam := rfl
@[simp] theorem acceptCommand_paramPos (b : Byte) (s : State) : (acceptCommand b s).paramPos = 0x00#8 := rfl
@[simp] theorem acceptCommand_colorParam (b : Byte) (s : State) : (acceptCommand b s).colorParam = s.colorParam := rfl
@[simp] theorem acceptCommand_latchTime (b : Byte) (s : State) : (acceptCommand b s).latchTime = s.latchTime := rfl
@[simp] theorem acceptCommand_strip (b : Byte) (s : State) : (acceptCommand b s).strip = s.strip := rfl
@[simp] theorem acceptCommand_now (b : Byte) (s : State) : (acceptCommand b s).now = s.now := rfl
@[simp] theorem acceptCommand_input (b : Byte) (s : State) : (acceptCommand b s).input = s.input := rfl
@[simp] theorem acceptCommand_events (b : Byte) (s : State) : (acceptCommand b s).events = s.events := rfl
@[simp] theorem acceptCommand_params (b : Byte) (s : State) : (acceptCommand b s).params = s.params := rfl

/-! ### `accumulateNum` -/

@[simp] theorem accumulateNum_initialized (n : Nibble) (s : State) :
    (accumulateNum n s).initialized = s.initialized := rfl
@[simp] theorem accumulateNum_hasCommand (n : Nibble) (s : State) : (accumulateNum n s).hasCommand = s.hasCommand := rfl
@[simp] theorem accumulateNum_command (n : Nibble) (s : State) : (accumulateNum n s).command = s.command := rfl
@[simp] theorem accumulateNum_hasNumParam (n : Nibble) (s : State) :
    (accumulateNum n s).hasNumParam = s.hasNumParam := rfl
@[simp] theorem accumulateNum_numParam (n : Nibble) (s : State) :
    (accumulateNum n s).numParam = nextNum s.paramPos s.numParam n := rfl
@[simp] theorem accumulateNum_paramPos (n : Nibble) (s : State) : (accumulateNum n s).paramPos = s.paramPos + 1#8 := rfl
@[simp] theorem accumulateNum_colorParam (n : Nibble) (s : State) : (accumulateNum n s).colorParam = s.colorParam := rfl
@[simp] theorem accumulateNum_latchTime (n : Nibble) (s : State) : (accumulateNum n s).latchTime = s.latchTime := rfl
@[simp] theorem accumulateNum_strip (n : Nibble) (s : State) : (accumulateNum n s).strip = s.strip := rfl
@[simp] theorem accumulateNum_now (n : Nibble) (s : State) : (accumulateNum n s).now = s.now := rfl
@[simp] theorem accumulateNum_input (n : Nibble) (s : State) : (accumulateNum n s).input = s.input := rfl
@[simp] theorem accumulateNum_events (n : Nibble) (s : State) : (accumulateNum n s).events = s.events := rfl
@[simp] theorem accumulateNum_params (n : Nibble) (s : State) : (accumulateNum n s).params = s.params := rfl

/-! ### `accumulateColor` -/

@[simp] theorem accumulateColor_initialized (n : Nibble) (s : State) :
    (accumulateColor n s).initialized = s.initialized := rfl
@[simp] theorem accumulateColor_hasCommand (n : Nibble) (s : State) :
    (accumulateColor n s).hasCommand = s.hasCommand := rfl
@[simp] theorem accumulateColor_command (n : Nibble) (s : State) : (accumulateColor n s).command = s.command := rfl
@[simp] theorem accumulateColor_hasNumParam (n : Nibble) (s : State) :
    (accumulateColor n s).hasNumParam = s.hasNumParam := rfl
@[simp] theorem accumulateColor_numParam (n : Nibble) (s : State) : (accumulateColor n s).numParam = s.numParam := rfl
@[simp] theorem accumulateColor_paramPos (n : Nibble) (s : State) :
    (accumulateColor n s).paramPos = s.paramPos + 1#8 := rfl
@[simp] theorem accumulateColor_colorParam (n : Nibble) (s : State) :
    (accumulateColor n s).colorParam = nextColor s.paramPos s.colorParam n := rfl
@[simp] theorem accumulateColor_latchTime (n : Nibble) (s : State) :
    (accumulateColor n s).latchTime = s.latchTime := rfl
@[simp] theorem accumulateColor_strip (n : Nibble) (s : State) : (accumulateColor n s).strip = s.strip := rfl
@[simp] theorem accumulateColor_now (n : Nibble) (s : State) : (accumulateColor n s).now = s.now := rfl
@[simp] theorem accumulateColor_input (n : Nibble) (s : State) : (accumulateColor n s).input = s.input := rfl
@[simp] theorem accumulateColor_events (n : Nibble) (s : State) : (accumulateColor n s).events = s.events := rfl
@[simp] theorem accumulateColor_params (n : Nibble) (s : State) : (accumulateColor n s).params = s.params := rfl

/-! ### `powerOnReset` -/

@[simp] theorem powerOnReset_initialized (s : State) : (powerOnReset s).initialized = false := rfl
@[simp] theorem powerOnReset_hasCommand (s : State) : (powerOnReset s).hasCommand = false := rfl
@[simp] theorem powerOnReset_command (s : State) : (powerOnReset s).command = 0x00#8 := rfl
@[simp] theorem powerOnReset_hasNumParam (s : State) : (powerOnReset s).hasNumParam = false := rfl
@[simp] theorem powerOnReset_numParam (s : State) : (powerOnReset s).numParam = 0x0000#16 := rfl
@[simp] theorem powerOnReset_paramPos (s : State) : (powerOnReset s).paramPos = 0x00#8 := rfl
@[simp] theorem powerOnReset_colorParam (s : State) : (powerOnReset s).colorParam = 0x00000000#32 := rfl
@[simp] theorem powerOnReset_latchTime (s : State) : (powerOnReset s).latchTime = s.params.latchTimeInit := rfl
@[simp] theorem powerOnReset_strip (s : State) : (powerOnReset s).strip = s.strip := rfl
@[simp] theorem powerOnReset_now (s : State) : (powerOnReset s).now = s.now := rfl
@[simp] theorem powerOnReset_input (s : State) : (powerOnReset s).input = s.input := rfl
@[simp] theorem powerOnReset_events (s : State) : (powerOnReset s).events = s.events := rfl
@[simp] theorem powerOnReset_params (s : State) : (powerOnReset s).params = s.params := rfl

end Sys2Proof.Machine
end

