-- ==== Sys2Proof/Laws/Ops.lean ====
section
/-! SUPPORT. One lemma for each shared operation that says what it can do, so that later proofs cite it. -/

namespace Sys2Proof.Machine

@[simp] theorem stripPixelCount_eq (s : State) : stripPixelCount s = s.strip.pixelCount := rfl

/-- What `raiseDiag` does: the one report, then the neutral registers. -/
theorem raiseDiag_eq (d : Diag) (s : State) : raiseDiag d s = parserReset { s with events := s.events ++ [.diag d] } := rfl

/-- What a latch can do (44_latch.md R121): transmit and record the time, or refuse. -/
theorem latch_cases (s : State) :
    (latchAllowed s = true
      ∧ latch s =
        { s with
          strip := { s.strip with shown := s.strip.pixels }
          events := s.events ++ [.showFrame]
          latchTime := s.now })
    ∨ (latchAllowed s = false ∧ latch s = { s with events := s.events ++ [.diag .elt] }) := by
  unfold latch
  cases h : latchAllowed s <;> simp [stripShow, emit, nowMillis]

theorem latchAllowed_iff (s : State) :
    latchAllowed s = true ↔ s.params.latchTimeoutMs < s.now - s.latchTime :=
  decide_eq_true_iff

theorem exceedsCount_iff (s : State) : exceedsCount s = true ↔ s.strip.pixelCount < s.numParam :=
  decide_eq_true_iff

/-- What SHADE's fill does (42_phase_b.md R105): the events in rising index order, the pixels written, nothing else. -/
theorem fillPixels_spec (c : U32) (n : Nat) (s : State) :
    fillPixels c n s =
      { s with
        strip := { s.strip with pixels := (fillPixels c n s).strip.pixels }
        events := s.events ++ (List.range n).map fun i => .setPixel (BitVec.ofNat 16 i) c } := by
  induction n with
  | zero => simp [fillPixels]
  | succ n ih =>
    simp only [fillPixels, stripSetPixel, emit, List.range_succ, List.map_append, List.map_cons, List.map_nil]
    rw [ih]
    simp

/-- What an index reads after the fill: the colour below `n`, as before elsewhere. -/
theorem fillPixels_read (c : U32) (n : Nat) (hn : n ≤ 2 ^ 16) (s : State) (a : Nat) :
    (fillPixels c n s).strip.pixels.read a = if a < n then some c else s.strip.pixels.read a := by
  induction n with
  | zero => simp [fillPixels]
  | succ n ih =>
    have hlt : n % 2 ^ 16 = n := Nat.mod_eq_of_lt (by omega)
    simp only [fillPixels, stripSetPixel_strip, BitVec.toNat_ofNat, hlt]
    by_cases h : a = n
    · subst h; simp [Memory.read_write_same]
    · rw [Memory.read_write_other _ _ h, ih (by omega)]
      have : (a < n + 1) ↔ (a < n) := by omega
      simp [this]

theorem fillPixels_wf (c : U32) (n : Nat) (s : State) (h : s.strip.pixels.wf) :
    (fillPixels c n s).strip.pixels.wf := by
  induction n with
  | zero => exact h
  | succ n ih => exact Memory.write_wf _ ih (BitVec.isLt _)

/-- A PIXEL completes exactly where its index is below the count (R104; U6). -/
theorem finishPixel_next {s t : State} (h : finishPixel s = .next t) :
    s.numParam < s.strip.pixelCount ∧ t = parserReset (stripSetPixel s.numParam s.colorParam s) := by
  unfold finishPixel at h
  split at h
  · exact ⟨‹_›, by simpa using h.symm⟩
  · cases h

/-- A SHADE completes exactly where its count is at most the pixel count (R105; U6). -/
theorem finishShade_next {s t : State} (h : finishShade s = .next t) :
    s.numParam ≤ s.strip.pixelCount
      ∧ t = parserReset (latch (fillPixels s.colorParam s.numParam.toNat s)) := by
  unfold finishShade at h
  split at h
  · exact ⟨‹_›, by simpa using h.symm⟩
  · cases h

/-- The two ways a colour field completes (R103). -/
theorem finishColorB_next {s t : State} (h : finishColorB s = .next t) :
    (s.command = byteP ∧ finishPixel s = .next t) ∨ (s.command = byteS ∧ finishShade s = .next t) := by
  unfold finishColorB at h
  split at h
  · exact .inl ⟨‹_›, h⟩
  · split at h
    · exact .inr ⟨‹_›, h⟩
    · cases h

/-- The two outcomes of an INIT in Phase A (R85). -/
theorem finishInitA_cases (s : State) :
    (stripResize s.params s.numParam ≠ 0#16
      ∧ finishInitA s =
        raiseDiag (.initOk (stripResize s.params s.numParam))
          { stripSetLength s.numParam s with initialized := true })
    ∨ (stripResize s.params s.numParam = 0#16
      ∧ finishInitA s = raiseDiag .initFailed (stripSetLength s.numParam s)) := by
  by_cases h : stripResize s.params s.numParam = 0#16 <;> simp [finishInitA, h]

/-- The outcomes of a completed numeric field in Phase B (R97 to R102): an error or a report that resets, or the way on to the
colour field of SHADE or PIXEL. -/
theorem finishNumB_cases (s : State) :
    (∃ d, finishNumB s = raiseDiag d s)
    ∨ (finishNumB s = { s with hasNumParam := true, paramPos := 0x00#8 }
      ∧ s.numParam ≤ s.strip.pixelCount
      ∧ (s.command = byteS
        ∨ s.command = byteP
          ∧ (s.params.pixelGuardPoint = .atParamComplete → s.numParam ≠ s.strip.pixelCount))) := by
  unfold finishNumB
  split
  · exact .inl ⟨_, rfl⟩
  · rename_i hx
    have hle : s.numParam ≤ s.strip.pixelCount := BitVec.not_lt.1 fun h => hx ((exceedsCount_iff s).2 h)
    split
    · exact .inl ⟨_, rfl⟩
    · split
      · rename_i hS
        refine .inr ⟨?_, hle, .inl hS⟩
        unfold finishEnterColor
        rw [if_neg]
        rintro ⟨hP, -⟩
        exact absurd (hS.symm.trans hP) (by decide)
      · split
        · rename_i hP
          unfold finishEnterColor
          split
          · exact .inl ⟨_, rfl⟩
          · rename_i hg
            refine .inr ⟨rfl, hle, .inr ⟨hP, fun hpt heq => hg ⟨hP, hpt, ?_⟩⟩⟩
            simp [indexEqualsCount, heq]
        · split
          · exact .inl ⟨_, rfl⟩
          · exact .inl ⟨_, rfl⟩

end Sys2Proof.Machine
end

