-- ==== Sys2Proof/Laws/PerInstr.lean ====
section
/-! SUPPORT. Facts about the instructions as syntax, one lemma for each constructor of Instr. -/

namespace Sys2Proof.Laws

/-- The row family: a row of the opcode table, in the instruction's mode, takes the instruction's byte and reads the
instruction from it (30_encoding.md R67). -/
def RowTakes.Statement (i : Instr) : Prop :=
  i.wf = true → ∃ r ∈ opcodeTable, r.mode = i.mode ∧ r.takes (encode i) = true ∧ r.read (encode i) = i

/-- The witness of `RowTakes.Statement` by the row's place in the table. -/
theorem rowTakes_of_index {i : Instr} (n : Nat) (hn : n < opcodeTable.length)
    (h : opcodeTable[n].mode = i.mode ∧ opcodeTable[n].takes (encode i) = true ∧ opcodeTable[n].read (encode i) = i) :
    ∃ r ∈ opcodeTable, r.mode = i.mode ∧ r.takes (encode i) = true ∧ r.read (encode i) = i :=
  ⟨_, List.getElem_mem hn, h⟩

theorem RowTakes.initA : RowTakes.Statement .initA :=
  fun _ => rowTakes_of_index 0 (by decide) (by decide)

theorem RowTakes.versionA : RowTakes.Statement .versionA :=
  fun _ => rowTakes_of_index 1 (by decide) (by decide)

theorem RowTakes.ignoreA (b : Byte) : RowTakes.Statement (.ignoreA b) := fun _ =>
  rowTakes_of_index 2 (by decide) ⟨rfl, by revert b; decide, rfl⟩

theorem RowTakes.initB : RowTakes.Statement .initB :=
  fun _ => rowTakes_of_index 3 (by decide) (by decide)

theorem RowTakes.versionB : RowTakes.Statement .versionB :=
  fun _ => rowTakes_of_index 4 (by decide) (by decide)

theorem RowTakes.pixel : RowTakes.Statement .pixel :=
  fun _ => rowTakes_of_index 5 (by decide) (by decide)

theorem RowTakes.latchFrame : RowTakes.Statement .latchFrame :=
  fun _ => rowTakes_of_index 6 (by decide) (by decide)

theorem RowTakes.shade : RowTakes.Statement .shade :=
  fun _ => rowTakes_of_index 7 (by decide) (by decide)

theorem RowTakes.rawFrame : RowTakes.Statement .rawFrame :=
  fun _ => rowTakes_of_index 8 (by decide) (by decide)

theorem RowTakes.unrecognizedB (b : Byte) : RowTakes.Statement (.unrecognizedB b) := fun _ =>
  rowTakes_of_index 9 (by decide) ⟨rfl, by revert b; decide, rfl⟩

theorem RowTakes.abort : RowTakes.Statement .abort :=
  fun _ => rowTakes_of_index 10 (by decide) (by decide)

theorem RowTakes.digitDec (n : Nibble) : RowTakes.Statement (.digitDec n) := fun h =>
  rowTakes_of_index 11 (by decide) (by revert h; revert n; decide)

theorem RowTakes.digitUc (n : Nibble) : RowTakes.Statement (.digitUc n) := fun h =>
  rowTakes_of_index 12 (by decide) (by revert h; revert n; decide)

theorem RowTakes.digitLc (n : Nibble) : RowTakes.Statement (.digitLc n) := fun h =>
  rowTakes_of_index 13 (by decide) (by revert h; revert n; decide)

theorem RowTakes.digitNonhex (b : Byte) : RowTakes.Statement (.digitNonhex b) := fun _ =>
  rowTakes_of_index 14 (by decide) ⟨rfl, by revert b; decide, rfl⟩

theorem RowTakes.lengthDigitA (b : Byte) : RowTakes.Statement (.lengthDigitA b) := fun h =>
  rowTakes_of_index 15 (by decide) ⟨rfl, by revert h; revert b; decide, rfl⟩

theorem RowTakes.completeInitA (b : Byte) : RowTakes.Statement (.completeInitA b) := fun h =>
  rowTakes_of_index 16 (by decide) ⟨rfl, by revert h; revert b; decide, rfl⟩

theorem RowTakes.digitBNum (b : Byte) : RowTakes.Statement (.digitBNum b) := fun h =>
  rowTakes_of_index 17 (by decide) ⟨rfl, by revert h; revert b; decide, rfl⟩

theorem RowTakes.completeNumB (b : Byte) : RowTakes.Statement (.completeNumB b) := fun h =>
  rowTakes_of_index 18 (by decide) ⟨rfl, by revert h; revert b; decide, rfl⟩

theorem RowTakes.completeReinitB (b : Byte) : RowTakes.Statement (.completeReinitB b) := fun h =>
  rowTakes_of_index 19 (by decide) ⟨rfl, by revert h; revert b; decide, rfl⟩

theorem RowTakes.enterColor (b : Byte) : RowTakes.Statement (.enterColor b) := fun h =>
  rowTakes_of_index 20 (by decide) ⟨rfl, by revert h; revert b; decide, rfl⟩

theorem RowTakes.completeRawFrame (b : Byte) : RowTakes.Statement (.completeRawFrame b) := fun h =>
  rowTakes_of_index 21 (by decide) ⟨rfl, by revert h; revert b; decide, rfl⟩

theorem RowTakes.completeUnknown (b : Byte) : RowTakes.Statement (.completeUnknown b) := fun h =>
  rowTakes_of_index 22 (by decide) ⟨rfl, by revert h; revert b; decide, rfl⟩

theorem RowTakes.pixelGuardLate (b : Byte) : RowTakes.Statement (.pixelGuardLate b) := fun h =>
  rowTakes_of_index 23 (by decide) ⟨rfl, by revert h; revert b; decide, rfl⟩

theorem RowTakes.digitBColor (b : Byte) : RowTakes.Statement (.digitBColor b) := fun h =>
  rowTakes_of_index 24 (by decide) ⟨rfl, by revert h; revert b; decide, rfl⟩

theorem RowTakes.completeColorB (b : Byte) : RowTakes.Statement (.completeColorB b) := fun h =>
  rowTakes_of_index 25 (by decide) ⟨rfl, by revert h; revert b; decide, rfl⟩

theorem RowTakes.completePixel (b : Byte) : RowTakes.Statement (.completePixel b) := fun h =>
  rowTakes_of_index 26 (by decide) ⟨rfl, by revert h; revert b; decide, rfl⟩

theorem RowTakes.completeShade (b : Byte) : RowTakes.Statement (.completeShade b) := fun h =>
  rowTakes_of_index 27 (by decide) ⟨rfl, by revert h; revert b; decide, rfl⟩

end Sys2Proof.Laws
end

