-- ==== Sys2Proof/Laws/Run.lean ====
section
/-! SUPPORT. `runSteps` is the run of the host's interface. -/

namespace Sys2Proof.Machine

@[simp] theorem runSteps_zero (s : State) : runSteps 0 s = .next s := rfl

theorem runSteps_succ {s t : State} (n : Nat) (h : step s = .next t) : runSteps (n + 1) s = runSteps n t := by
  simp [runSteps, h]

theorem core_run_next (M : Host.Core) {s t : M.State} (n : Nat) (h : M.step s = .next t) :
    M.run (n + 1) s = M.run n t := by
  simp [Host.Core.run, h]

theorem core_run_refused (M : Host.Core) {s : M.State} {r : M.Refusal} (n : Nat) (h : M.step s = .refused r) :
    M.run (n + 1) s = .refused r := by
  simp [Host.Core.run, h]

theorem runSteps_eq_core_run (n : Nat) (s : State) : runSteps n s = Sys2Proof.core.run n s := by
  induction n generalizing s with
  | zero => rfl
  | succ n ih =>
    cases h : step s with
    | next t => exact (runSteps_succ n h).trans ((ih t).trans (core_run_next Sys2Proof.core n h).symm)
    | fault r => cases r
    | refused r =>
      have hrun : runSteps (n + 1) s = .refused r := by simp [runSteps, h]
      exact hrun.trans (core_run_refused Sys2Proof.core n h).symm

end Sys2Proof.Machine
end

