-- ==== Sys2Proof/Tests/Slice0.lean ====
section
/-! SUPPORT. The model's own tests. Expected values come from spec/95_test_vectors.md (the vector's name is given) or from the
rule named; the environment is its E16 unless said otherwise. The `witness_` theorems show, for each statement with
hypotheses, a concrete state and operands that meet them, at a boundary where there is one. -/

namespace Sys2Proof.Tests

open Sys2Proof.Machine

/-! ### Small states -/

/-- The parameters of E16; the strip takes 0x10, clamps 0x1000 to 0x100 and refuses 0. -/
def e16Params (g : GuardPoint) : Params where
  latchTimeoutMs := 50#32
  latchTimeInit := 0#32
  pixelGuardPoint := g
  stripResizeAt := [(0x0010#16, 0x0010#16), (0x1000#16, 0x0100#16), (0x0000#16, 0x0000#16)]
  programName := [0x70#8]
  buildDate := [0x64#8]
  versionString := [0x76#8]

/-- `IdleB` with 16 pixels. -/
def idleB (latchTime now : U32) : State where
  initialized := true
  hasCommand := false
  command := 0#8
  hasNumParam := false
  numParam := 0#16
  paramPos := 0#8
  colorParam := 0#32
  latchTime := latchTime
  strip := { pixelCount := 16#16, pixels := [], shown := [] }
  now := now
  input := []
  events := []
  params := e16Params .atParamComplete

/-- `IdleA`. -/
def idleA : State := { idleB 0#32 0#32 with initialized := false }

/-- `LengthA(k)` with an accumulator. -/
def lengthA (k : Nat) (v : U16) : State :=
  { idleA with hasCommand := true, command := byteI, paramPos := BitVec.ofNat 8 k, numParam := v }

/-- `NumB(c, k)` with an accumulator. -/
def numB (c : Byte) (k : Nat) (v : U16) : State :=
  { idleB 0#32 100#32 with hasCommand := true, command := c, paramPos := BitVec.ofNat 8 k, numParam := v }

/-- `ColorB(c, k)` with a number and an accumulator. -/
def colorB (c : Byte) (k : Nat) (v : U16) (col : U32) : State :=
  { idleB 0#32 100#32 with
    hasCommand := true, command := c, hasNumParam := true, numParam := v
    paramPos := BitVec.ofNat 8 k, colorParam := col }

/-- The same state with the guard at the first colour byte. -/
def late (s : State) : State := { s with params := e16Params .atFirstColorByte }

/-- The same state with these bytes waiting, each at this clock value. -/
def waiting (bs : List Byte) (now : U32) (s : State) : State := { s with input := bs.map fun b => ⟨b, now⟩ }

/-- The next state, if there is one. -/
def after : Result → Option State
  | .next t => some t
  | .refused _ => none

/-- The events of the next state. -/
def eventsAfter (r : Result) : Option (List Event) := (after r).map State.events

/-! ### Well-formedness: one ill-formed term for each check -/

theorem test_wf_refuses :
    Instr.wf (.ignoreA byteV) = false ∧ Instr.wf (.unrecognizedB byteW) = false
      ∧ Instr.wf (.digitDec 10#4) = false ∧ Instr.wf (.digitUc 9#4) = false ∧ Instr.wf (.digitLc 9#4) = false
      ∧ Instr.wf (.digitNonhex 0x30#8) = false ∧ Instr.wf (.lengthDigitA byteI) = false
      ∧ Instr.wf (.completeInitA byteI) = false ∧ Instr.wf (.digitBNum byteI) = false
      ∧ Instr.wf (.completeNumB byteI) = false ∧ Instr.wf (.completeReinitB byteI) = false
      ∧ Instr.wf (.enterColor byteI) = false ∧ Instr.wf (.completeRawFrame byteI) = false
      ∧ Instr.wf (.completeUnknown byteI) = false ∧ Instr.wf (.pixelGuardLate byteI) = false
      ∧ Instr.wf (.digitBColor byteI) = false ∧ Instr.wf (.completeColorB byteI) = false
      ∧ Instr.wf (.completePixel byteI) = false ∧ Instr.wf (.completeShade byteI) = false := by decide

theorem test_wf_admits :
    Instr.wf (.ignoreA 0x4C#8) = true ∧ Instr.wf (.digitDec 9#4) = true ∧ Instr.wf (.digitUc 10#4) = true
      ∧ Instr.wf (.digitNonhex 0x69#8) = true ∧ Instr.wf (.completeShade 0x00#8) = true := by decide

/-! ### Decoding: each constructor from a byte written out from R53, R56 to R58 -/

theorem test_decode_topA :
    decodeByte .topA 0b01001001#8 = .initA ∧ decodeByte .topA 0b01010110#8 = .versionA
      ∧ decodeByte .topA 0b01010000#8 = .ignoreA 0x50#8 ∧ decodeByte .topA 0b01101001#8 = .ignoreA 0x69#8 := by
  decide

theorem test_decode_topB :
    decodeByte .topB 0b01001001#8 = .initB ∧ decodeByte .topB 0b01010110#8 = .versionB
      ∧ decodeByte .topB 0b01010000#8 = .pixel ∧ decodeByte .topB 0b01001100#8 = .latchFrame
      ∧ decodeByte .topB 0b01010011#8 = .shade ∧ decodeByte .topB 0b01010111#8 = .rawFrame
      ∧ decodeByte .topB 0b01110011#8 = .unrecognizedB 0x73#8 := by decide

theorem test_decode_param :
    decodeByte .param 0b01001001#8 = .abort ∧ decodeByte .param 0b00110000#8 = .digitDec 0#4
      ∧ decodeByte .param 0b01000001#8 = .digitUc 10#4 ∧ decodeByte .param 0b01100110#8 = .digitLc 15#4
      ∧ decodeByte .param 0b01001100#8 = .digitNonhex 0x4C#8 ∧ decodeByte .param 0b01000111#8 = .digitNonhex 0x47#8
      ∧ decodeByte .param 0b11111111#8 = .digitNonhex 0xFF#8 := by decide

theorem test_decode_effects :
    decodeByte (.paramState .lengthA) 0b00110001#8 = .lengthDigitA 0x31#8
      ∧ decodeByte (.paramState .lengthALast) 0b00110001#8 = .completeInitA 0x31#8
      ∧ decodeByte (.paramState .numB) 0b00110001#8 = .digitBNum 0x31#8
      ∧ decodeByte (.paramState .numBLast) 0b00110001#8 = .completeNumB 0x31#8
      ∧ decodeByte (.paramState .reinit) 0b00110001#8 = .completeReinitB 0x31#8
      ∧ decodeByte (.paramState .color) 0b00110001#8 = .enterColor 0x31#8
      ∧ decodeByte (.paramState .raw) 0b00110001#8 = .completeRawFrame 0x31#8
      ∧ decodeByte (.paramState .unknown) 0b00110001#8 = .completeUnknown 0x31#8
      ∧ decodeByte (.paramState .lateGuard) 0b00110001#8 = .pixelGuardLate 0x31#8
      ∧ decodeByte (.paramState .colorB) 0b00110001#8 = .digitBColor 0x31#8
      ∧ decodeByte (.paramState .colorBLast) 0b00110001#8 = .completeColorB 0x31#8
      ∧ decodeByte (.paramState .pixel) 0b00110001#8 = .completePixel 0x31#8
      ∧ decodeByte (.paramState .shade) 0b00110001#8 = .completeShade 0x31#8
      ∧ decodeByte (.paramState .shade) 0b01001001#8 = .abort := by decide

theorem test_decode_no_byte : decode .topA [] = .error .noByte := rfl

theorem test_table_has_28_rows : opcodeTable.length = 28 := by decide

theorem test_table_word :
    decodeTableWord 8 0x49 = some .initA ∧ decodeTableWord 8 0x57 = some .rawFrame
      ∧ decodeTableWord 8 0x35 = some (.digitDec 5#4) ∧ decodeTableWord 8 0 = some (.ignoreA 0#8) := by decide

theorem test_fetch_word_runs_the_table_word :
    step (State.reset.withFetchWord 8 0x50)
      = exec .pixel { State.reset.withFetchWord 8 0x50 with input := [] } := rfl

/-! ### Operands -/

/-- Vectors 2.1. -/
theorem test_hexVal :
    [0x2F#8, 0x30#8, 0x39#8, 0x3A#8, 0x40#8, 0x41#8, 0x46#8, 0x47#8, 0x60#8, 0x61#8, 0x66#8, 0x67#8, 0x80#8].map hexVal
      = [0#4, 0#4, 9#4, 0#4, 0#4, 10#4, 15#4, 0#4, 0#4, 10#4, 15#4, 0#4, 0#4] := by decide

/-- Vectors 2.2, the accumulator after each of `1 2 3 4`. -/
theorem test_accumulate_num :
    nextNum 0#8 0xFFFF#16 1#4 = 0x0010#16 ∧ nextNum 1#8 0x0010#16 2#4 = 0x0012#16
      ∧ nextNum 2#8 0x0012#16 3#4 = 0x1230#16 ∧ nextNum 3#8 0x1230#16 4#4 = 0x1234#16 := by decide

/-- Vectors 2.2, `1 2 3 4 5 6`. -/
theorem test_accumulate_color :
    nextColor 0#8 0xFFFFFFFF#32 1#4 = 0x10#32 ∧ nextColor 1#8 0x10#32 2#4 = 0x12#32
      ∧ nextColor 2#8 0x12#32 3#4 = 0x1230#32 ∧ nextColor 3#8 0x1230#32 4#4 = 0x1234#32
      ∧ nextColor 4#8 0x1234#32 5#4 = 0x123450#32 ∧ nextColor 5#8 0x123450#32 6#4 = 0x123456#32 := by decide

/-! ### Meanings -/

/-- A1. -/
theorem test_initA : after (exec .initA idleA) = some (lengthA 0 0#16) := by decide

/-- A2. -/
theorem test_versionA : eventsAfter (exec .versionA idleA) = some [.diag (.version [0x70#8] [0x64#8] [0x76#8])] := by
  decide

/-- A3. -/
theorem test_ignoreA : after (exec (.ignoreA byteL) idleA) = some idleA := by decide

/-- A5, the second `I`. -/
theorem test_abort : after (exec .abort (lengthA 0 0#16)) = some idleA := by decide

/-- A10. -/
theorem test_lengthDigitA : after (exec (.lengthDigitA 0x31#8) (lengthA 2 0#16)) = some (lengthA 3 0x0010#16) := by
  decide

/-- A4: a clamping strip. -/
theorem test_completeInitA_clamped :
    eventsAfter (exec (.completeInitA 0x30#8) (lengthA 3 0x1000#16))
      = some [.setLength 0x1000#16, .diag (.initOk 0x0100#16)]
      ∧ (after (exec (.completeInitA 0x30#8) (lengthA 3 0x1000#16))).map (fun t => (t.initialized, t.strip.pixelCount))
      = some (true, 0x0100#16) := by decide

/-- W3. -/
theorem test_completeInitA_failed :
    eventsAfter (exec (.completeInitA 0x30#8) (lengthA 3 0#16)) = some [.setLength 0#16, .diag .initFailed]
      ∧ (after (exec (.completeInitA 0x30#8) (lengthA 3 0#16))).map State.initialized = some false := by decide

/-- R89 to R95. -/
theorem test_commands :
    after (exec .initB (idleB 0#32 100#32)) = some (numB byteI 0 0#16)
      ∧ after (exec .pixel (idleB 0#32 100#32)) = some (numB byteP 0 0#16)
      ∧ after (exec .shade (idleB 0#32 100#32)) = some (numB byteS 0 0#16)
      ∧ after (exec .rawFrame (idleB 0#32 100#32)) = some (numB byteW 0 0#16) := by decide

/-- B20, B18. -/
theorem test_versionB_unrecognizedB :
    eventsAfter (exec .versionB (idleB 0#32 0#32)) = some [.diag (.version [0x70#8] [0x64#8] [0x76#8])]
      ∧ after (exec (.unrecognizedB 0x73#8) (idleB 7#32 9#32)) = some (idleB 7#32 9#32) := by decide

/-- L1, L2: elapsed 50 and 51 against a timeout of 50. -/
theorem test_latch_boundary :
    eventsAfter (exec .latchFrame (idleB 1000#32 1050#32)) = some [.diag .elt]
      ∧ eventsAfter (exec .latchFrame (idleB 1000#32 1051#32)) = some [.showFrame]
      ∧ (after (exec .latchFrame (idleB 1000#32 1051#32))).map State.latchTime = some 1051#32 := by decide

/-- L3, L4, L5: the clock wraps, the clock steps back. -/
theorem test_latch_wrap :
    eventsAfter (exec .latchFrame (idleB 0xFFFFFFF0#32 0x20#32)) = some [.diag .elt]
      ∧ eventsAfter (exec .latchFrame (idleB 0xFFFFFFF0#32 0x30#32)) = some [.showFrame]
      ∧ eventsAfter (exec .latchFrame (idleB 1000#32 900#32)) = some [.showFrame] := by decide

/-- R96. -/
theorem test_digitBNum : after (exec (.digitBNum 0x32#8) (numB byteS 1 0x0010#16)) = some (numB byteS 2 0x0012#16) := by
  decide

/-- X1 and B2: `numParam` 0x11 and 0x10 with 16 pixels. -/
theorem test_completeNumB :
    eventsAfter (exec (.completeNumB 0x31#8) (numB byteI 3 0x0010#16)) = some [.diag (.enp 0x0011#16 byteI)]
      ∧ eventsAfter (exec (.completeNumB 0x30#8) (numB byteI 3 0x0010#16)) = some [.diag (.initDone 0x0010#16)] := by
  decide

/-- B1. -/
theorem test_completeReinitB :
    eventsAfter (exec (.completeReinitB 0x38#8) (numB byteI 3 0#16)) = some [.diag (.initDone 0x0010#16)] := by decide

/-- W5, B10: the guard here, and the guard left for the colour field. -/
theorem test_enterColor :
    eventsAfter (exec (.enterColor 0x30#8) (numB byteP 3 0x0010#16)) = some [.diag (.enpEq 0x0010#16)]
      ∧ after (exec (.enterColor 0x30#8) (late (numB byteP 3 0x0010#16))) = some (late (colorB byteP 0 0x0010#16 0#32)) := by
  decide

/-- B14; R102. -/
theorem test_raw_and_unknown :
    after (exec (.completeRawFrame 0x32#8) (numB byteW 3 0#16))
      = some { idleB 0#32 100#32 with events := [.diag .rawFrame] }
      ∧ eventsAfter (exec (.completeUnknown 0x30#8) (numB 0x41#8 3 0#16)) = some [.diag (.euc 0x41#8)] := by decide

/-- B11; R100 where the guard passes. -/
theorem test_pixelGuardLate :
    eventsAfter (exec (.pixelGuardLate 0x31#8) (late (colorB byteP 0 0x0010#16 0#32)))
      = some [.diag (.enpEq 0x0010#16)]
      ∧ after (exec (.pixelGuardLate 0x31#8) (late (colorB byteP 0 0x000F#16 0#32)))
      = some (late (colorB byteP 1 0x000F#16 0x10#32)) := by decide

/-- R96 with the late guard due, and not due. -/
theorem test_digitBColor :
    eventsAfter (exec (.digitBColor 0x31#8) (late (colorB byteP 0 0x0010#16 0#32)))
      = some [.diag (.enpEq 0x0010#16)]
      ∧ after (exec (.digitBColor 0x31#8) (colorB byteS 4 3#16 0x1234#32)) = some (colorB byteS 5 3#16 0x123410#32) := by
  decide

/-- B8: the pixel is written, nothing is shown. -/
theorem test_completePixel :
    after (exec (.completePixel 0x36#8) (colorB byteP 5 0x000F#16 0x123450#32))
      = some { idleB 0#32 100#32 with
          strip := { pixelCount := 16#16, pixels := [(15, 0x123456#32)], shown := [] }
          events := [.setPixel 0x000F#16 0x123456#32] } := by decide

/-- W4, transmitted. -/
theorem test_completeShade_shown :
    after (exec (.completeShade 0x30#8) (colorB byteS 5 3#16 0xFF0000#32))
      = some { idleB 100#32 100#32 with
          strip :=
            { pixelCount := 16#16
              pixels := [(0, 0xFF0000#32), (1, 0xFF0000#32), (2, 0xFF0000#32)]
              shown := [(0, 0xFF0000#32), (1, 0xFF0000#32), (2, 0xFF0000#32)] }
          events := [.setPixel 0#16 0xFF0000#32, .setPixel 1#16 0xFF0000#32, .setPixel 2#16 0xFF0000#32, .showFrame] } := by
  decide

/-- W4 with `latchTime` 80, and B5. -/
theorem test_completeShade_refused_and_empty :
    (after (exec (.completeShade 0x30#8) { colorB byteS 5 1#16 0xFF0000#32 with latchTime := 80#32 })).map
        (fun t => (t.events, t.latchTime, t.strip.shown))
      = some ([.setPixel 0#16 0xFF0000#32, .diag .elt], 80#32, [])
      ∧ eventsAfter (exec (.completeShade 0x30#8) (colorB byteS 5 0#16 0xFF0000#32)) = some [.showFrame] := by decide

/-- R103: the dispatch on the command. -/
theorem test_completeColorB :
    exec (.completeColorB 0x36#8) (colorB byteP 5 0x000F#16 0x123450#32)
      = exec (.completePixel 0x36#8) (colorB byteP 5 0x000F#16 0x123450#32)
      ∧ exec (.completeColorB 0x36#8) (colorB byteS 5 1#16 0x123450#32)
      = exec (.completeShade 0x36#8) (colorB byteS 5 1#16 0x123450#32) := ⟨rfl, rfl⟩

/-- B17, the `L`; and a digit of each class. -/
theorem test_digit_classes :
    after (exec (.digitNonhex byteL) (numB byteS 2 0#16)) = some (numB byteS 3 0#16)
      ∧ after (exec (.digitDec 9#4) (numB byteS 0 0#16)) = some (numB byteS 1 0x0090#16)
      ∧ after (exec (.digitUc 10#4) (numB byteS 1 0#16)) = some (numB byteS 2 0x000A#16)
      ∧ after (exec (.digitLc 15#4) (lengthA 0 0#16)) = some (lengthA 1 0x00F0#16) := by decide

/-- A fourth digit through its class completes the field. -/
theorem test_digit_completes :
    eventsAfter (exec (.digitDec 1#4) (numB byteS 3 0x0010#16)) = some [.diag (.enp 0x0011#16 byteS)]
      ∧ eventsAfter (exec (.digitDec 0#4) (lengthA 3 0x0010#16))
      = some [.setLength 0x0010#16, .diag (.initOk 0x0010#16)] := by decide

/-- X2: `I` in the last digit position aborts. -/
theorem test_step_abort :
    after (step (waiting [byteI] 100#32 (numB byteP 3 0x0010#16))) = some (idleB 0#32 100#32) := by decide

theorem test_memory :
    Memory.write [(1, 5#32), (3, 6#32)] 2 7#32 = [(1, 5#32), (2, 7#32), (3, 6#32)]
      ∧ Memory.write [(1, 5#32)] 1 7#32 = [(1, 7#32)] ∧ Memory.read [(1, 5#32)] 0 = none := by decide

/-! ### Witnesses of the statements' hypotheses -/

theorem idleB_isIdleB (l n : U32) : IdleB (idleB l n) := ⟨rfl, rfl, rfl, rfl, rfl, rfl, rfl⟩

theorem idleA_isIdleA : IdleA idleA := ⟨rfl, rfl, rfl, rfl, rfl, rfl, rfl⟩

theorem empty_memoryForm : MemoryForm (idleB 0#32 0#32) := by simp [MemoryForm, Memory.wf, idleB]

theorem lengthA_isLengthA : LengthA 2 (lengthA 2 0#16) ∧ LengthA 3 (lengthA 3 0#16) := by
  constructor <;> refine ⟨rfl, rfl, rfl, rfl, rfl, by omega, rfl⟩

theorem numB_isNumB : NumB byteS 2 (numB byteS 2 0#16) ∧ NumB byteW 3 (numB byteW 3 0#16) := by
  constructor <;> refine ⟨rfl, rfl, rfl, by decide, rfl, rfl, by omega, rfl⟩

theorem colorB_isColorB : ColorB byteP 4 (colorB byteP 4 15#16 0x1234#32) :=
  ⟨rfl, rfl, rfl, by decide, rfl, rfl, by omega, by decide, fun _ _ => by decide, by decide⟩

theorem colorB_inv : Inv (colorB byteP 4 15#16 0x1234#32) :=
  ⟨.inr (.inr (.inr (.inr ⟨_, _, colorB_isColorB⟩))), by simp [MemoryForm, Memory.wf, colorB, idleB]⟩

theorem witness_DecodeEncodeRoundTrip : Instr.wf (.digitUc 15#4) = true ∧ Instr.wf (.completeShade 0xFF#8) = true := by
  decide

theorem witness_StepRunsDecodedInstruction :
    (waiting [byteL] 100#32 (idleB 0#32 0#32)).input = ⟨byteL, 100#32⟩ :: []
      ∧ decode (decodeMode (waiting [byteL] 100#32 (idleB 0#32 0#32))) [byteL] = .ok (.latchFrame, []) := ⟨rfl, rfl⟩

theorem witness_StepHoldsWithoutByte : (idleB 0#32 0#32).input = [] := rfl

theorem witness_StepIsFeedByte : (waiting [0x00#8] 1#32 idleA).input = ⟨0x00#8, 1#32⟩ :: [] := rfl

/-- A state for each of the thirteen rows. -/
theorem witness_DigitRunsItsEffectRow :
    slotHolds .lengthA 0x31#8 (lengthA 2 0#16) = true ∧ slotHolds .lengthALast 0x31#8 (lengthA 3 0#16) = true
      ∧ slotHolds .numB 0x31#8 (numB byteS 2 0#16) = true ∧ slotHolds .numBLast 0x31#8 (numB byteS 3 0x10#16) = true
      ∧ slotHolds .reinit 0x30#8 (numB byteI 3 0x10#16) = true
      ∧ slotHolds .color 0x30#8 (numB byteS 3 0x10#16) = true
      ∧ slotHolds .color 0x30#8 (numB byteP 3 0x10#16) = true
      ∧ slotHolds .raw 0x30#8 (numB byteW 3 0x10#16) = true
      ∧ slotHolds .unknown 0x30#8 (numB 0x41#8 3 0x10#16) = true
      ∧ slotHolds .lateGuard 0x30#8 (late (colorB byteP 0 0x10#16 0#32)) = true
      ∧ slotHolds .colorB 0x30#8 (colorB byteP 4 15#16 0#32) = true
      ∧ slotHolds .colorBLast 0x30#8 (colorB byteS 5 16#16 0#32) = true
      ∧ slotHolds .pixel 0x30#8 (colorB byteP 5 15#16 0#32) = true
      ∧ slotHolds .shade 0x30#8 (colorB byteS 5 16#16 0#32) = true := by decide

theorem witness_EveryDigitHasAnEffectRow :
    Inv (colorB byteP 4 15#16 0x1234#32) ∧ (colorB byteP 4 15#16 0x1234#32).hasCommand = true ∧ 0x31#8 ≠ byteI :=
  ⟨colorB_inv, rfl, by decide⟩

theorem witness_InitAAccepts : IdleA idleA ∧ LengthA 3 (lengthA 3 0#16) := ⟨idleA_isIdleA, lengthA_isLengthA.2⟩

theorem witness_PhaseBCommandsAccepted : IdleB (idleB 0#32 0#32) := idleB_isIdleB _ _

theorem witness_VersionReports : Neutral (idleB 0#32 0#32) := (idleB_isIdleB _ _).2

theorem witness_IgnoredByteChangesNothing : (0x4A#8 : Byte) ≠ 0x49#8 ∧ (0x4A#8 : Byte) ≠ 0x56#8 := by decide

theorem witness_UnrecognizedByteResetsSilently : isCommandB 0x69#8 = false ∧ IdleB (idleB 0#32 0#32) :=
  ⟨by decide, idleB_isIdleB _ _⟩

theorem witness_AbortDiscardsCommand :
    (numB byteP 3 0#16).hasCommand = true ∧ (numB byteP 3 0#16).initialized = true
      ∧ (lengthA 3 0#16).initialized = false := by decide

theorem witness_LatchFrameTransmitsOrRefuses :
    (idleB 1000#32 1051#32).params.latchTimeoutMs.toNat
        < ((idleB 1000#32 1051#32).now - (idleB 1000#32 1051#32).latchTime).toNat
      ∧ ((idleB 1000#32 1050#32).now - (idleB 1000#32 1050#32).latchTime).toNat
        ≤ (idleB 1000#32 1050#32).params.latchTimeoutMs.toNat := by decide

theorem witness_HexValRanges : (0x50#8 : Byte) ≠ 0x49#8 ∧ (0x2F#8 : Byte) ≠ 0x49#8 := by decide

theorem witness_NumericDigitAdvances : LengthA 2 (lengthA 2 0#16) ∧ NumB byteS 2 (numB byteS 2 0#16) :=
  ⟨lengthA_isLengthA.1, numB_isNumB.1⟩

theorem witness_ColorDigitAdvances :
    ColorB byteP 4 (colorB byteP 4 15#16 0x1234#32)
      ∧ (lateGuardDue (late (colorB byteP 0 15#16 0#32)) = true
        ∧ (late (colorB byteP 0 15#16 0#32)).numParam ≠ (late (colorB byteP 0 15#16 0#32)).strip.pixelCount) :=
  ⟨colorB_isColorB, by decide⟩

theorem witness_NumericFieldValue : (numB byteS 0 0xFFFF#16).paramPos = 0#8 := rfl

theorem witness_ColorFieldValue : (colorB byteS 0 0#16 0#32).paramPos = 0#8 := rfl

theorem witness_HexDigitsRoundTrip :
    hexVal 0x66#8 = (0xFa0b#16).extractLsb' 12 4 ∧ hexVal 0x41#8 = (0xFa0b#16).extractLsb' 8 4
      ∧ hexVal 0x7A#8 = (0xFa0b#16).extractLsb' 4 4 ∧ hexVal 0x42#8 = (0xFa0b#16).extractLsb' 0 4
      ∧ hexVal 0x46#8 = (0xF00000#24).extractLsb' 20 4 ∧ hexVal 0x30#8 = (0xF00000#24).extractLsb' 0 4 := by decide

theorem witness_InitCompletionConfiguresStrip :
    (accumulateNum (hexVal 0x30#8) (lengthA 3 0x1000#16)).numParam = 0x1000#16
      ∧ stripResize (lengthA 3 0#16).params 0x1000#16 = 0x100#16 ∧ stripResize (lengthA 3 0#16).params 0#16 = 0#16 := by
  decide

theorem witness_ReinitReportsWithoutResize :
    (numB byteI 3 0x10#16).command = 0x49#8
      ∧ (accumulateNum (hexVal 0x30#8) (numB byteI 3 0x10#16)).numParam.toNat
        ≤ (numB byteI 3 0x10#16).strip.pixelCount.toNat := by decide

/-- 17 and 16 against a count of 16. -/
theorem witness_NumericCompletionChecksCount :
    (numB byteS 3 0x10#16).strip.pixelCount.toNat < (accumulateNum (hexVal 0x31#8) (numB byteS 3 0x10#16)).numParam.toNat
      ∧ (accumulateNum (hexVal 0x30#8) (numB byteS 3 0x10#16)).numParam.toNat
        ≤ (numB byteS 3 0x10#16).strip.pixelCount.toNat := by decide

theorem witness_NumericCompletionWithinCount :
    (accumulateNum (hexVal 0x30#8) (numB byteS 3 0x10#16)).numParam.toNat ≤ (numB byteS 3 0x10#16).strip.pixelCount.toNat
      ∧ (numB byteS 3 0x10#16).command = 0x53#8
      ∧ (accumulateNum (hexVal 0x66#8) (numB byteP 3 0#16)).numParam.toNat ≤ (numB byteP 3 0#16).strip.pixelCount.toNat
      ∧ (accumulateNum (hexVal 0x66#8) (numB byteP 3 0#16)).numParam ≠ (numB byteP 3 0#16).strip.pixelCount
      ∧ (accumulateNum (hexVal 0x30#8) (numB byteI 3 0x10#16)).numParam.toNat ≤ (numB byteI 3 0x10#16).strip.pixelCount.toNat
      ∧ (numB byteI 3 0x10#16).command = 0x49#8
      ∧ (accumulateNum (hexVal 0x30#8) (numB byteW 3 0x10#16)).numParam.toNat ≤ (numB byteW 3 0x10#16).strip.pixelCount.toNat
      ∧ (numB byteW 3 0x10#16).command = 0x57#8 := by
  decide

theorem witness_EnterColorOrGuard :
    (numB byteP 3 0x10#16).command = 0x50#8
      ∧ (numB byteP 3 0x10#16).params.pixelGuardPoint = .atParamComplete
      ∧ (accumulateNum (hexVal 0x30#8) (numB byteP 3 0x10#16)).numParam = (numB byteP 3 0x10#16).strip.pixelCount
      ∧ (numB byteS 3 0x10#16).command ≠ 0x50#8 := by decide

theorem witness_LatePixelGuard :
    (colorB byteP 0 16#16 0#32).numParam = (colorB byteP 0 16#16 0#32).strip.pixelCount
      ∧ (colorB byteP 0 15#16 0#32).numParam ≠ (colorB byteP 0 15#16 0#32).strip.pixelCount := by decide

theorem witness_PixelWritesOneEntry :
    (colorB byteP 5 15#16 0#32).numParam.toNat < (colorB byteP 5 15#16 0#32).strip.pixelCount.toNat
      ∧ (colorB byteP 5 15#16 0#32).command = 0x50#8 := by decide

theorem witness_ShadeFillsAndLatches :
    (colorB byteS 5 16#16 0#32).numParam.toNat ≤ (colorB byteS 5 16#16 0#32).strip.pixelCount.toNat
      ∧ (colorB byteS 5 16#16 0#32).command = 0x53#8 := by decide

theorem witness_ColorCompletionStopsByName :
    (colorB byteP 5 16#16 0#32).strip.pixelCount.toNat ≤ (colorB byteP 5 16#16 0#32).numParam.toNat
      ∧ (colorB byteS 5 17#16 0#32).strip.pixelCount.toNat < (colorB byteS 5 17#16 0#32).numParam.toNat
      ∧ (colorB 0x41#8 5 0#16 0#32).command ≠ 0x50#8 ∧ (colorB 0x41#8 5 0#16 0#32).command ≠ 0x53#8 := by decide

theorem witness_InvHoldsAtReset : MemoryForm (idleB 0#32 0#32) := empty_memoryForm

theorem witness_StepKeepsInv :
    Inv (waiting [0x31#8] 1#32 (colorB byteP 4 15#16 0x1234#32))
      ∧ ∃ t, step (waiting [0x31#8] 1#32 (colorB byteP 4 15#16 0x1234#32)) = .next t := ⟨colorB_inv, _, rfl⟩

theorem witness_RunNeverStops : Inv (colorB byteP 4 15#16 0x1234#32) := colorB_inv

theorem witness_StepKeepsMemoryForm :
    MemoryForm (waiting [byteL] 1#32 (idleB 0#32 0#32)) ∧ ∃ t, step (waiting [byteL] 1#32 (idleB 0#32 0#32)) = .next t :=
  ⟨empty_memoryForm, _, rfl⟩

/-- A step that sets `initialized`. -/
theorem witness_InitializedSetOnlyByInit :
    (waiting [0x30#8] 1#32 (lengthA 3 0x10#16)).initialized = false
      ∧ (after (step (waiting [0x30#8] 1#32 (lengthA 3 0x10#16)))).map State.initialized = some true := by decide

/-- A step that transmits, and one that does not. -/
theorem witness_LatchTimeWrittenOnlyByTransmit :
    eventsAfter (step (waiting [byteL] 51#32 (idleB 0#32 0#32))) = some [.showFrame]
      ∧ eventsAfter (step (waiting [byteL] 50#32 (idleB 0#32 0#32))) = some [.diag .elt] := by decide

theorem witness_StepEventBounds : ∃ t, step (waiting [0x30#8] 100#32 (colorB byteS 5 3#16 0#32)) = .next t := ⟨_, rfl⟩

theorem witness_PixelRequestsValid :
    eventsAfter (step (waiting [0x30#8] 100#32 (colorB byteP 5 15#16 0#32))) = some [.setPixel 15#16 0#32] := by decide

theorem witness_PhaseAOnlySetsLength :
    (waiting [byteL] 100#32 idleA).initialized = false ∧ ∃ t, step (waiting [byteL] 100#32 idleA) = .next t :=
  ⟨rfl, _, rfl⟩

theorem witness_PhaseBNeverResizes :
    (waiting [byteI] 0#32 (idleB 0#32 0#32)).initialized = true
      ∧ ∃ t, step (waiting [byteI] 0#32 (idleB 0#32 0#32)) = .next t := ⟨rfl, _, rfl⟩

theorem witness_StepKeepsParametersAndTakesOneByte : ∃ t, step (waiting [byteI, byteI] 0#32 idleA) = .next t := ⟨_, rfl⟩

theorem witness_UninitialisedNoiseIgnored :
    IdleA (waiting [byteV, byteL] 5#32 idleA)
      ∧ (waiting [byteV, byteL] 5#32 idleA).input = [⟨byteV, 5#32⟩, ⟨byteL, 5#32⟩] ++ []
      ∧ ∀ a ∈ [(⟨byteV, 5#32⟩ : Arrival), ⟨byteL, 5#32⟩], a.byte ≠ byteI := ⟨idleA_isIdleA, rfl, by decide⟩

theorem witness_LeftoverDigitsDropped :
    IdleB (waiting [0x66#8, 0x30#8] 5#32 (idleB 0#32 0#32)) ∧ IsHexByte 0x66#8 ∧ IsHexByte 0x30#8 ∧ IsHexByte 0x41#8 :=
  ⟨idleB_isIdleB 0#32 0#32, .inr (.inr (by decide)), .inl (by decide), .inr (.inl (by decide))⟩

theorem witness_InitMessageConfigures :
    IdleA idleA ∧ byteI ∉ [0x30#8, 0x56#8, 0x31#8, 0x30#8]
      ∧ fieldValue [0x30#8, 0x56#8, 0x31#8, 0x30#8] = 0x10 ∧ stripResize idleA.params 0x10#16 = 0x10#16 :=
  ⟨idleA_isIdleA, by decide, by decide, by decide⟩

theorem witness_PixelMessageWritesPixel :
    IdleB (idleB 0#32 0#32) ∧ byteI ∉ [0x30#8, 0x30#8, 0x30#8, 0x66#8]
      ∧ fieldValue [0x30#8, 0x30#8, 0x30#8, 0x66#8] < (idleB 0#32 0#32).strip.pixelCount.toNat
      ∧ byteI ∉ [0x31#8, 0x32#8, 0x33#8, 0x34#8, 0x35#8, 0x36#8] := ⟨idleB_isIdleB _ _, by decide, by decide, by decide⟩

theorem witness_ShadeMessageFills :
    IdleB (idleB 0#32 0#32) ∧ byteI ∉ [0x30#8, 0x30#8, 0x31#8, 0x30#8]
      ∧ fieldValue [0x30#8, 0x30#8, 0x31#8, 0x30#8] = (idleB 0#32 0#32).strip.pixelCount.toNat :=
  ⟨idleB_isIdleB _ _, by decide, by decide⟩

theorem witness_GuardPointsAgreeOnFullMessage :
    IdleB (idleB 0#32 0#32) ∧ byteI ∉ [0x30#8, 0x30#8, 0x31#8, 0x30#8] ∧ IsHexByte 0x31#8 :=
  ⟨idleB_isIdleB _ _, by decide, .inl (by decide)⟩

/-- W6: now 100, then now 120. -/
theorem witness_SecondLatchTooSoonRefused :
    IdleB { idleB 0#32 0#32 with input := [⟨byteL, 100#32⟩, ⟨byteL, 120#32⟩] }
      ∧ (idleB 0#32 0#32).params.latchTimeoutMs.toNat < (100#32 - (idleB 0#32 0#32).latchTime).toNat
      ∧ (120#32 - 100#32).toNat ≤ (idleB 0#32 0#32).params.latchTimeoutMs.toNat :=
  ⟨idleB_isIdleB 0#32 0#32, by decide, by decide⟩

theorem witness_StatusTextFollowsReports : ∃ t, step (waiting [byteV] 0#32 idleA) = .next t := ⟨_, rfl⟩

end Sys2Proof.Tests
end

section
/-! The statement of the state's family: the status output (R26). -/

namespace Sys2Proof.Proofs

/-- Settles O14: the query reads the register `initialized` in every state, reachable or not, so that no run
and no invariant enters (R26). -/
theorem statusOutputIsInitialized : Obligations.StatusOutputIsInitialized := by
  unfold Obligations.StatusOutputIsInitialized Machine.isInitialized
  intro s
  rfl

end Sys2Proof.Proofs
end

section
/-! The statements of the Phase A family: INIT_A (R81) and the ignored bytes (R83). -/

namespace Sys2Proof.Proofs

open Sys2Proof.Machine

/-- INIT_A is the shared acceptance of a command byte, here `'I'` (R81). -/
theorem exec_initA (s : State) : exec .initA s = .next (acceptCommand byteI s) := rfl

/-- IGNORE_A is the identity on states (R83). -/
theorem exec_ignoreA (b : Byte) (s : State) : exec (.ignoreA b) s = .next s := rfl

/-- The bytes that mode `TOP_A` leaves to its catch-all row (R56). -/
theorem decodeByte_topA_of_ne {b : Byte} (hI : b ≠ byteI) (hV : b ≠ byteV) : decodeByte .topA b = .ignoreA b := by
  change decodeTopA b = .ignoreA b
  rw [decodeTopA, if_neg hI, if_neg hV]

/-- A pending command selects mode `PARAM` in either phase (R55). -/
theorem decodeMode_of_hasCommand {s : State} (h : s.hasCommand = true) : decodeMode s = .param := if_pos h

/-- `'I'` aborts in mode `PARAM` (R58, R72). -/
theorem decodeByte_param_byteI : decodeByte .param byteI = .abort := rfl

/-- INIT in `IdleA` opens the length field (R81): the acceptance writes three of the registers that `LengthA(0)` fixes, and
the others have its values in `IdleA` already. -/
theorem lengthA_zero_of_idleA {s : State} (h : IdleA s) : LengthA 0 (acceptCommand byteI s) := by
  obtain ⟨hphase, _, _, hnoNum, _, _, hcolor⟩ := h
  exact ⟨hphase, rfl, rfl, hnoNum, rfl, Nat.zero_le 3, hcolor⟩

/-- `'I'` in the length field is the abort at every digit position (R81, R72). -/
theorem decodeByte_byteI_of_lengthA {s : State} {k : Nat} (h : LengthA k s) :
    decodeByte (decodeMode s) byteI = .abort := by
  obtain ⟨_, hpending, _⟩ := h
  rw [decodeMode_of_hasCommand hpending, decodeByte_param_byteI]

/-- Settles O15: the three writes are `acceptCommand` with `'I'`, and in the length field the pending command makes the mode
`PARAM`, where `'I'` aborts. -/
theorem initAAccepts : Obligations.InitAAccepts :=
  ⟨rfl, exec_initA, fun _ => lengthA_zero_of_idleA, fun _ _ => decodeByte_byteI_of_lengthA⟩

/-- Settles O18: the two excluded bytes are the only ones with a row before the catch-all row of `TOP_A`, and that row's
meaning is the identity. -/
theorem ignoredByteChangesNothing : Obligations.IgnoredByteChangesNothing :=
  fun b hI hV => ⟨decodeByte_topA_of_ne hI hV, exec_ignoreA b⟩

end Sys2Proof.Proofs
end

section
/-! The statements of the Phase B family: the accepted commands (R89, R91, R93, R95), re-init (R98) and COMPLETE_PIXEL (R104).
-/

namespace Sys2Proof.Proofs

open Sys2Proof.Machine

/-! ### The instructions' meanings -/

/-- INIT_B is the shared acceptance of a command byte, here `'I'` (R89). -/
theorem exec_initB (s : State) : exec .initB s = .next (acceptCommand byteI s) := rfl

/-- PIXEL accepts `'P'` (R91). -/
theorem exec_pixel (s : State) : exec .pixel s = .next (acceptCommand byteP s) := rfl

/-- SHADE accepts `'S'` (R93). -/
theorem exec_shade (s : State) : exec .shade s = .next (acceptCommand byteS s) := rfl

/-- RAW_FRAME accepts `'W'` (R95). -/
theorem exec_rawFrame (s : State) : exec .rawFrame s = .next (acceptCommand byteW s) := rfl

/-- COMPLETE_NUM_B takes the fourth digit and completes the field (R97). -/
theorem exec_completeNumB (b : Byte) (s : State) :
    exec (.completeNumB b) s = .next (finishNumB (accumulateNum (hexVal b) s)) := rfl

/-- COMPLETE_REINIT_B takes the fourth digit and reports (R98). -/
theorem exec_completeReinitB (b : Byte) (s : State) :
    exec (.completeReinitB b) s = .next (finishReinitB (accumulateNum (hexVal b) s)) := rfl

/-- COMPLETE_COLOR_B takes the sixth digit and completes the field (R103). -/
theorem exec_completeColorB (b : Byte) (s : State) :
    exec (.completeColorB b) s = finishColorB (accumulateColor (hexVal b) s) := rfl

/-- COMPLETE_PIXEL takes the sixth digit and writes the pixel (R104). -/
theorem exec_completePixel (b : Byte) (s : State) :
    exec (.completePixel b) s = finishPixel (accumulateColor (hexVal b) s) := rfl

/-! ### The shared operations -/

/-- What an index reads after one write: the colour there, as before elsewhere. -/
theorem memory_read_write (m : Memory) (i a : Nat) (c : U32) :
    (m.write i c).read a = if a = i then some c else m.read a := by
  split
  next h => rw [h, Memory.read_write_same]
  next h => exact Memory.read_write_other m c h

/-- The reset drops what a colour digit did to the registers (R74). -/
theorem parserReset_stripSetPixel_accumulateColor (i : U16) (c : U32) (n : Nibble) (s : State) :
    parserReset (stripSetPixel i c (accumulateColor n s)) = parserReset (stripSetPixel i c s) := rfl

/-- The reset after a report drops what a numeric digit did to the registers (R74). -/
theorem raiseDiag_accumulateNum (d : Diag) (n : Nibble) (s : State) :
    raiseDiag d (accumulateNum n s) = raiseDiag d s := rfl

/-- Below the count `CompletePixel()` writes its one pixel and resets (R104). -/
theorem finishPixel_of_lt {s : State} (h : s.numParam < s.strip.pixelCount) :
    finishPixel s = .next (parserReset (stripSetPixel s.numParam s.colorParam s)) := if_pos h

/-- A colour field pending under PIXEL goes to `CompletePixel()` (R103). -/
theorem finishColorB_of_pixel {s : State} (h : s.command = byteP) : finishColorB s = finishPixel s := if_pos h

/-- A numeric field within the count, pending under INIT, goes to `CompleteReinitB()` (R97). -/
theorem finishNumB_of_init {s : State} (hcommand : s.command = byteI) (hle : s.numParam ≤ s.strip.pixelCount) :
    finishNumB s = finishReinitB s := by
  have hwithin : ¬exceedsCount s = true := fun h => BitVec.not_lt.2 hle ((exceedsCount_iff s).1 h)
  rw [finishNumB, if_neg hwithin, if_pos hcommand]

/-- `CompleteReinitB()` keeps nothing of the digit before it: the strip's count is reported, `numParam` is reset (R98). -/
theorem finishReinitB_accumulateNum (n : Nibble) (s : State) :
    finishReinitB (accumulateNum n s) = raiseDiag (.initDone s.strip.pixelCount) s := by
  rw [finishReinitB, raiseDiag_accumulateNum, stripPixelCount_eq, accumulateNum_strip]

/-! ### COMPLETE_PIXEL -/

/-- COMPLETE_PIXEL with its index below the count: the pixel takes the completed colour, and the reset leaves no trace of the
digit (R104). -/
theorem exec_completePixel_of_lt {b : Byte} {s : State} (h : s.numParam < s.strip.pixelCount) :
    exec (.completePixel b) s =
      .next (parserReset (stripSetPixel s.numParam (accumulateColor (hexVal b) s).colorParam s)) := by
  have hdigit : (accumulateColor (hexVal b) s).numParam < (accumulateColor (hexVal b) s).strip.pixelCount := h
  rw [exec_completePixel, finishPixel_of_lt hdigit, accumulateColor_numParam, parserReset_stripSetPixel_accumulateColor]

/-- COMPLETE_COLOR_B under PIXEL is COMPLETE_PIXEL (R103). -/
theorem exec_completeColorB_of_pixel {b : Byte} {s : State} (h : s.command = byteP) :
    exec (.completeColorB b) s = exec (.completePixel b) s := finishColorB_of_pixel h

/-- Settles O36: both instructions are the one write of `Memory.write` at the index, which `memory_read_write` reads back. -/
theorem pixelWritesOneEntry : Obligations.PixelWritesOneEntry := by
  unfold Obligations.PixelWritesOneEntry
  rintro b i s c hi rfl hlt
  have hpixel : exec i s = exec (.completePixel b) s := by
    obtain rfl | ⟨rfl, hcommand⟩ := hi
    · rfl
    · exact exec_completeColorB_of_pixel hcommand
  exact ⟨s.strip.pixels.write s.numParam.toNat _, hpixel.trans (exec_completePixel_of_lt hlt),
    fun a => memory_read_write _ _ a _⟩

/-! ### The commands -/

/-- A command accepted in `IdleB` opens its numeric field (R89, R91, R93, R95): the acceptance writes three of the registers
that `NumB(c, 0)` fixes, and the others have its values in `IdleB` already. -/
theorem numB_zero_of_idleB {c : Byte} {s : State} (hc : c = byteI ∨ c = byteP ∨ c = byteS ∨ c = byteW) (h : IdleB s) :
    NumB c 0 (acceptCommand c s) := by
  obtain ⟨hphase, _, _, hnoNum, _, _, hcolor⟩ := h
  exact ⟨hphase, rfl, rfl, hc, hnoNum, rfl, Nat.zero_le 3, hcolor⟩

/-- Settles O16: each row is its own byte's in mode `TOP_B`, and its meaning is `acceptCommand` with that byte. -/
theorem phaseBCommandsAccepted : Obligations.PhaseBCommandsAccepted := by
  unfold Obligations.PhaseBCommandsAccepted
  rintro c i (⟨rfl, rfl⟩ | ⟨rfl, rfl⟩ | ⟨rfl, rfl⟩ | ⟨rfl, rfl⟩)
  · exact ⟨rfl, fun s => ⟨exec_initB s, numB_zero_of_idleB (by decide)⟩⟩
  · exact ⟨rfl, fun s => ⟨exec_pixel s, numB_zero_of_idleB (by decide)⟩⟩
  · exact ⟨rfl, fun s => ⟨exec_shade s, numB_zero_of_idleB (by decide)⟩⟩
  · exact ⟨rfl, fun s => ⟨exec_rawFrame s, numB_zero_of_idleB (by decide)⟩⟩

/-! ### Re-init -/

/-- Settles O31: the reset hides the digit from the answer, so the report with the strip's count is all that is left; within
the count COMPLETE_NUM_B under INIT has no other way on. -/
theorem reinitReportsWithoutResize : Obligations.ReinitReportsWithoutResize := by
  unfold Obligations.ReinitReportsWithoutResize
  intro b s
  constructor
  · rw [exec_completeReinitB, finishReinitB_accumulateNum, raiseDiag_eq]
  · intro hcommand hle
    have hpending : (accumulateNum (hexVal b) s).command = byteI := hcommand
    rw [exec_completeNumB, exec_completeReinitB, finishNumB_of_init hpending hle]

end Sys2Proof.Proofs
end

section
/-! The statement of the hex accumulator's family: the nibble decoder (R111) and the digit classes that use it (R58). -/

namespace Sys2Proof.Proofs

open Sys2Proof.Machine

/-! ### The digit classes as ranges of numbers -/

theorem isDecByte_iff (b : Byte) : isDecByte b = true ↔ 0x30 ≤ b.toNat ∧ b.toNat ≤ 0x39 := by
  simp [BitVec.le_def]

theorem isUcByte_iff (b : Byte) : isUcByte b = true ↔ 0x41 ≤ b.toNat ∧ b.toNat ≤ 0x46 := by
  simp [BitVec.le_def]

theorem isLcByte_iff (b : Byte) : isLcByte b = true ↔ 0x61 ≤ b.toNat ∧ b.toNat ≤ 0x66 := by
  simp [BitVec.le_def]

theorem not_isDecByte_of_isUcByte {b : Byte} (h : isUcByte b = true) : ¬isDecByte b = true := by
  rw [isUcByte_iff] at h
  rw [isDecByte_iff]
  omega

theorem not_isDecByte_of_isLcByte {b : Byte} (h : isLcByte b = true) : ¬isDecByte b = true := by
  rw [isLcByte_iff] at h
  rw [isDecByte_iff]
  omega

theorem not_isUcByte_of_isLcByte {b : Byte} (h : isLcByte b = true) : ¬isUcByte b = true := by
  rw [isLcByte_iff] at h
  rw [isUcByte_iff]
  omega

theorem not_isHexByte_iff (b : Byte) :
    ¬IsHexByte b ↔ ¬isDecByte b = true ∧ ¬isUcByte b = true ∧ ¬isLcByte b = true := by
  rw [IsHexByte, not_or, not_or]

/-! ### The nibble -/

/-- Within 16 of its base, a byte's nibble is the difference itself: neither the subtraction nor the cut to four bits wraps. -/
theorem digitNibble_toNat {b base : Byte} (hle : base.toNat ≤ b.toNat) (hlt : b.toNat < base.toNat + 16) :
    (digitNibble b base).toNat = b.toNat - base.toNat := by
  rw [digitNibble, BitVec.toNat_setWidth, BitVec.toNat_sub_of_le (BitVec.le_def.2 hle)]
  exact Nat.mod_eq_of_lt (by omega)

/-- HexVal in the decoder's own terms: its three ranges are the digit classes, its differences their nibbles (R111, R58). -/
theorem hexVal_eq (b : Byte) :
    hexVal b =
      if isDecByte b then digitNibble b 0x30#8
      else if isUcByte b then digitNibble b 0x37#8
      else if isLcByte b then digitNibble b 0x57#8
      else 0#4 := by
  simp only [hexVal, digitNibble, Bool.and_eq_true, decide_eq_true_eq]

theorem hexVal_of_isDecByte {b : Byte} (h : isDecByte b = true) : hexVal b = digitNibble b 0x30#8 := by
  rw [hexVal_eq, if_pos h]

theorem hexVal_of_isUcByte {b : Byte} (h : isUcByte b = true) : hexVal b = digitNibble b 0x37#8 := by
  rw [hexVal_eq, if_neg (not_isDecByte_of_isUcByte h), if_pos h]

theorem hexVal_of_isLcByte {b : Byte} (h : isLcByte b = true) : hexVal b = digitNibble b 0x57#8 := by
  rw [hexVal_eq, if_neg (not_isDecByte_of_isLcByte h), if_neg (not_isUcByte_of_isLcByte h), if_pos h]

/-- A byte that is no hex digit is not told from `'0'` (R111). -/
theorem hexVal_of_not_isHexByte {b : Byte} (h : ¬IsHexByte b) : hexVal b = 0#4 := by
  obtain ⟨hdec, huc, hlc⟩ := (not_isHexByte_iff b).1 h
  rw [hexVal_eq, if_neg hdec, if_neg huc, if_neg hlc]

/-! ### Mode `PARAM` -/

/-- DIGIT_DEC takes the nibble it carries (R58). -/
theorem exec_digitDec (n : Nibble) (s : State) : exec (.digitDec n) s = takeDigit n s := rfl

/-- DIGIT_UC takes the nibble it carries (R58). -/
theorem exec_digitUc (n : Nibble) (s : State) : exec (.digitUc n) s = takeDigit n s := rfl

/-- DIGIT_LC takes the nibble it carries (R58). -/
theorem exec_digitLc (n : Nibble) (s : State) : exec (.digitLc n) s = takeDigit n s := rfl

/-- DIGIT_NONHEX takes the digit 0, whatever its byte (R58, R63). -/
theorem exec_digitNonhex (b : Byte) (s : State) : exec (.digitNonhex b) s = takeDigit 0#4 s := rfl

/-- Every byte but `'I'` is taken as its nibble in mode `PARAM` (R111): each digit class of the decoder carries the nibble that
HexVal gives on its range. -/
theorem exec_decodeByte_param_of_ne {b : Byte} (hI : b ≠ byteI) (s : State) :
    exec (decodeByte .param b) s = takeDigit (hexVal b) s := by
  change exec (decodeParam b) s = takeDigit (hexVal b) s
  rw [decodeParam, if_neg hI]
  split_ifs with hdec huc hlc
  · rw [exec_digitDec, hexVal_of_isDecByte hdec]
  · rw [exec_digitUc, hexVal_of_isUcByte huc]
  · rw [exec_digitLc, hexVal_of_isLcByte hlc]
  · have hnonhex : ¬IsHexByte b := (not_isHexByte_iff b).2 ⟨hdec, huc, hlc⟩
    rw [exec_digitNonhex, hexVal_of_not_isHexByte hnonhex]

/-- Settles O22: on each range HexVal is the nibble of one digit class, where the subtraction is exact; outside all three it is
0; and mode `PARAM` takes every byte but `'I'` by that nibble. -/
theorem hexValRanges : Obligations.HexValRanges := by
  unfold Obligations.HexValRanges
  intro b
  refine ⟨fun h => ?dec, fun h => ?uc, fun h => ?lc, fun h => ?nonhex, exec_decodeByte_param_of_ne⟩
  case dec =>
    obtain ⟨hlo, hhi⟩ := h
    rw [hexVal_of_isDecByte ((isDecByte_iff b).2 ⟨hlo, hhi⟩)]
    exact digitNibble_toNat hlo (show b.toNat < 0x30 + 16 by omega)
  case uc =>
    rw [hexVal_of_isUcByte ((isUcByte_iff b).2 h)]
    exact digitNibble_toNat (show 0x37 ≤ b.toNat by omega) (show b.toNat < 0x37 + 16 by omega)
  case lc =>
    rw [hexVal_of_isLcByte ((isLcByte_iff b).2 h)]
    exact digitNibble_toNat (show 0x57 ≤ b.toNat by omega) (show b.toNat < 0x57 + 16 by omega)
  case nonhex =>
    have hnonhex : ¬IsHexByte b := by rwa [not_isHexByte_iff, isDecByte_iff, isUcByte_iff, isLcByte_iff]
    exact hexVal_of_not_isHexByte hnonhex

end Sys2Proof.Proofs
end

section
/-! The statement of the exceptions' family: the entry to an error (R135) and the return to top level (R136). -/

namespace Sys2Proof.Proofs

open Sys2Proof.Machine

/-- After `ParserReset()` the parser is in the neutral sub-state (R74). -/
theorem parserReset_neutral (s : State) : Neutral (parserReset s) := ⟨rfl, rfl, rfl, rfl, rfl, rfl⟩

/-- A neutral parser decodes its next byte at top level, and only the phase selects the mode (R55). -/
theorem decodeMode_of_neutral {s : State} (h : Neutral s) :
    decodeMode s = if s.initialized then .topB else .topA := by
  obtain ⟨hidle, _⟩ := h
  simp [decodeMode, hidle]

/-- Every error leaves the parser neutral, whatever field it was in: the reset comes after the report (R135). -/
theorem raiseDiag_neutral (d : Diag) (s : State) : Neutral (raiseDiag d s) := by
  rw [raiseDiag_eq]
  exact parserReset_neutral _

/-- The byte after an error is decoded at top level, in the phase the error was met in (R136). -/
theorem decodeMode_raiseDiag (d : Diag) (s : State) :
    decodeMode (raiseDiag d s) = if s.initialized then .topB else .topA := by
  rw [decodeMode_of_neutral (raiseDiag_neutral d s), raiseDiag_initialized]

/-- Settles O13: an error is its one report followed by the reset, which leaves the neutral registers and so the top level of
the phase; what the reset does not name is kept. -/
theorem raiseReportsAndResets : Obligations.RaiseReportsAndResets :=
  fun d s =>
    ⟨raiseDiag_eq d s, raiseDiag_neutral d s, raiseDiag_initialized d s, raiseDiag_latchTime d s, raiseDiag_events d s,
      raiseDiag_strip d s, raiseDiag_input d s, decodeMode_raiseDiag d s⟩

end Sys2Proof.Proofs
end

section
/-! The statements of the encoding's family: decode of encode, the opcode table and the bytes (R53 to R59, R63, R67). -/

namespace Sys2Proof.Proofs

open Sys2Proof.Machine

/-! ### The byte-class rows -/

theorem isCommandA_eq_false_iff (b : Byte) : isCommandA b = false ↔ b ≠ byteI ∧ b ≠ byteV := by
  simp

theorem isCommandB_eq_false_iff (b : Byte) :
    isCommandB b = false ↔ b ≠ byteI ∧ b ≠ byteV ∧ b ≠ byteP ∧ b ≠ byteL ∧ b ≠ byteS ∧ b ≠ byteW := by
  simp [and_assoc]

/-- The bytes that mode `TOP_B` leaves to its catch-all row (R57). -/
theorem decodeByte_topB_of_not_isCommandB {b : Byte} (h : isCommandB b = false) :
    decodeByte .topB b = .unrecognizedB b := by
  obtain ⟨hI, hV, hP, hL, hS, hW⟩ := (isCommandB_eq_false_iff b).1 h
  change decodeTopB b = .unrecognizedB b
  rw [decodeTopB, if_neg hI, if_neg hV, if_neg hP, if_neg hL, if_neg hS, if_neg hW]

/-- The bytes that mode `PARAM` leaves to its catch-all row (R58). -/
theorem decodeByte_param_of_not_isHexByte {b : Byte} (hI : b ≠ byteI) (h : ¬IsHexByte b) :
    decodeByte .param b = .digitNonhex b := by
  obtain ⟨hdec, huc, hlc⟩ := (not_isHexByte_iff b).1 h
  change decodeParam b = .digitNonhex b
  rw [decodeParam, if_neg hI, if_neg hdec, if_neg huc, if_neg hlc]

/-- A digit byte in a mode `PARAM_STATE` reads as that mode's one row (R67). -/
theorem decodeByte_paramState_of_ne {b : Byte} (slot : StateSlot) (hI : b ≠ byteI) :
    decodeByte (.paramState slot) b = effectRow slot b := if_neg hI

/-- What the byte of a digit class decodes to is that class with its nibble (R58), over the 16 nibbles. -/
theorem decodeByte_encode_digit (n : Nibble) :
    (n ≤ 9#4 → decodeByte .param (encode (.digitDec n)) = .digitDec n)
      ∧ (10#4 ≤ n → decodeByte .param (encode (.digitUc n)) = .digitUc n)
      ∧ (10#4 ≤ n → decodeByte .param (encode (.digitLc n)) = .digitLc n) := by
  revert n
  decide

/-! ### Decode of encode -/

/-- Each row's byte reads as the row in the row's mode: no earlier row of the mode takes a byte that `Instr.wf` lets the row
have. -/
theorem decodeByte_encode {i : Instr} (h : i.wf = true) : decodeByte i.mode (encode i) = i := by
  cases i with
  | initA | versionA | initB | versionB | pixel | latchFrame | shade | rawFrame | abort => rfl
  | ignoreA b =>
    obtain ⟨hI, hV⟩ := (isCommandA_eq_false_iff b).1 (Bool.not_eq_true' _ ▸ h)
    exact decodeByte_topA_of_ne hI hV
  | unrecognizedB b => exact decodeByte_topB_of_not_isCommandB (Bool.not_eq_true' _ ▸ h)
  | digitDec n => exact (decodeByte_encode_digit n).1 (of_decide_eq_true h)
  | digitUc n => exact (decodeByte_encode_digit n).2.1 (of_decide_eq_true h)
  | digitLc n => exact (decodeByte_encode_digit n).2.2 (of_decide_eq_true h)
  | digitNonhex b =>
    have hwf : ¬(b = byteI ∨ IsHexByte b) := by
      rw [IsHexByte]
      simpa only [Instr.wf, Bool.not_eq_true', ← Bool.not_eq_true, Bool.or_eq_true, beq_iff_eq, or_assoc] using h
    obtain ⟨hI, hnonhex⟩ := not_or.1 hwf
    exact decodeByte_param_of_not_isHexByte hI hnonhex
  | lengthDigitA b | completeInitA b | digitBNum b | completeNumB b | completeReinitB b | enterColor b
  | completeRawFrame b | completeUnknown b | pixelGuardLate b | digitBColor b | completeColorB b | completePixel b
  | completeShade b => exact decodeByte_paramState_of_ne _ (bne_iff_ne.1 h)

/-- Settles O1: `decode` gives the first byte's instruction and the rest, and that instruction is the encoded one. -/
theorem decodeEncodeRoundTrip : Obligations.DecodeEncodeRoundTrip := by
  unfold Obligations.DecodeEncodeRoundTrip
  intro i rest hwf
  rw [decode, decodeByte_encode hwf]

/-! ### Every byte decodes -/

/-- On a range of bytes from a base on, of which the offsets are nibbles, the nibble is the offset and gives the byte back. -/
theorem digitNibble_range {b base : Byte} (lo hi : Nibble) (hlo : base.toNat + lo.toNat ≤ b.toNat)
    (hhi : b.toNat ≤ base.toNat + hi.toNat) :
    lo ≤ digitNibble b base ∧ digitNibble b base ≤ hi ∧ base + (digitNibble b base).setWidth 8 = b := by
  have hmax := hi.isLt
  have hnibble : (digitNibble b base).toNat = b.toNat - base.toNat := digitNibble_toNat (by omega) (by omega)
  refine ⟨BitVec.le_def.2 (by omega), BitVec.le_def.2 (by omega), BitVec.eq_of_toNat_eq ?_⟩
  rw [BitVec.toNat_add, BitVec.toNat_setWidth, hnibble]
  omega

/-- The instruction read in mode `TOP_A` is well-formed and has the byte it was read from (R56). -/
theorem wf_decodeTopA (b : Byte) : (decodeTopA b).wf = true ∧ encode (decodeTopA b) = b := by
  unfold decodeTopA
  split_ifs with hI hV
  · exact ⟨rfl, hI.symm⟩
  · exact ⟨rfl, hV.symm⟩
  · exact ⟨by simp [Instr.wf, hI, hV], rfl⟩

/-- The instruction read in mode `TOP_B` is well-formed and has the byte it was read from (R57). -/
theorem wf_decodeTopB (b : Byte) : (decodeTopB b).wf = true ∧ encode (decodeTopB b) = b := by
  unfold decodeTopB
  split_ifs with hI hV hP hL hS hW
  · exact ⟨rfl, hI.symm⟩
  · exact ⟨rfl, hV.symm⟩
  · exact ⟨rfl, hP.symm⟩
  · exact ⟨rfl, hL.symm⟩
  · exact ⟨rfl, hS.symm⟩
  · exact ⟨rfl, hW.symm⟩
  · exact ⟨by simp [Instr.wf, hI, hV, hP, hL, hS, hW], rfl⟩

/-- The instruction read in mode `PARAM` is well-formed and has the byte it was read from (R58): on its range a digit class
keeps the whole byte in its nibble. -/
theorem wf_decodeParam (b : Byte) : (decodeParam b).wf = true ∧ encode (decodeParam b) = b := by
  unfold decodeParam
  split_ifs with hI hdec huc hlc
  · exact ⟨rfl, hI.symm⟩
  · obtain ⟨hlo, hhi⟩ := (isDecByte_iff b).1 hdec
    obtain ⟨_, hwf, hbyte⟩ := digitNibble_range (base := 0x30#8) 0#4 9#4 hlo hhi
    exact ⟨decide_eq_true hwf, hbyte⟩
  · obtain ⟨hlo, hhi⟩ := (isUcByte_iff b).1 huc
    obtain ⟨hwf, _, hbyte⟩ := digitNibble_range (base := 0x37#8) 10#4 15#4 hlo hhi
    exact ⟨decide_eq_true hwf, hbyte⟩
  · obtain ⟨hlo, hhi⟩ := (isLcByte_iff b).1 hlc
    obtain ⟨hwf, _, hbyte⟩ := digitNibble_range (base := 0x57#8) 10#4 15#4 hlo hhi
    exact ⟨decide_eq_true hwf, hbyte⟩
  · simp only [Bool.not_eq_true] at hdec huc hlc
    exact ⟨by simp only [Instr.wf, hdec, huc, hlc]; simpa using hI, rfl⟩

/-- An effect row has the byte it was read from, which `Instr.wf` lets be every byte but `'I'` (R67). -/
theorem wf_effectRow {b : Byte} (slot : StateSlot) (hI : b ≠ byteI) :
    (effectRow slot b).wf = true ∧ encode (effectRow slot b) = b := by
  have hne : (b != byteI) = true := bne_iff_ne.2 hI
  cases slot <;> exact ⟨hne, rfl⟩

/-- In every mode a byte reads as a well-formed instruction that has this byte (R54, R63). -/
theorem wf_decodeByte (m : Mode) (b : Byte) : (decodeByte m b).wf = true ∧ encode (decodeByte m b) = b := by
  cases m with
  | topA => exact wf_decodeTopA b
  | topB => exact wf_decodeTopB b
  | param => exact wf_decodeParam b
  | paramState slot =>
    by_cases hI : b = byteI
    · subst hI
      exact ⟨rfl, rfl⟩
    · rw [decodeByte_paramState_of_ne slot hI]
      exact wf_effectRow slot hI

/-- Settles O3: `decode` never fails on a byte, and what it reads is well-formed and has that byte. -/
theorem everyByteDecodes : Obligations.EveryByteDecodes :=
  fun m b _ => ⟨decodeByte m b, rfl, wf_decodeByte m b⟩

/-- Settles O4: closed facts of the decoder. -/
theorem specBytesDecode : Obligations.SpecBytesDecode := by
  unfold Obligations.SpecBytesDecode
  exact ⟨rfl, rfl, rfl, rfl, rfl, rfl, rfl, rfl, rfl, rfl, rfl, rfl, rfl, rfl, rfl⟩

/-! ### The opcode table -/

/-- A row that fixes all eight bits takes exactly its byte (R67). -/
theorem takes_fixed (name : String) (m : Mode) (p : Nat) (b' : Byte) (i : Instr) (b : Byte) :
    (TableRow.fixed name m p b' i).takes b = decide (b = b') := by
  have hmask : b &&& 0xFF#8 = b := BitVec.and_allOnes
  have hlo : 0x00#8 ≤ b := BitVec.le_def.2 (Nat.zero_le _)
  have hhi : b ≤ 0xFF#8 := BitVec.le_def.2 (Nat.le_of_lt_succ b.isLt)
  have hexcept : ((none : Option Byte) != some b) = true := rfl
  simp only [TableRow.takes, TableRow.fixed, hmask, hlo, hhi, hexcept, decide_true, Bool.and_true, beq_eq_decide]

/-- A row given by a range takes exactly the bytes of the range (R67). -/
theorem takes_range (name : String) (m : Mode) (p : Nat) (lo hi : Byte) (read : Byte → Instr) (b : Byte) :
    (TableRow.range name m p lo hi read).takes b = (lo ≤ b && b ≤ hi) := by
  have hmask : (b &&& 0x00#8 == 0x00#8) = true := beq_iff_eq.2 BitVec.and_zero
  have hexcept : ((none : Option Byte) != some b) = true := rfl
  simp only [TableRow.takes, TableRow.range, hmask, hexcept, Bool.true_and, Bool.and_true]
  rfl

/-- The first of these rows that takes the byte reads it as `i`. -/
def FirstReads (rows : List TableRow) (b : Byte) (i : Instr) : Prop :=
  ∃ r, rows.find? (fun r => r.takes b) = some r ∧ r.read b = i

/-- The first row reads a byte it takes. -/
theorem firstReads_of_takes {r : TableRow} {rows : List TableRow} {b : Byte} (h : r.takes b = true) :
    FirstReads (r :: rows) b (r.read b) := ⟨r, List.find?_cons_of_pos h, rfl⟩

/-- The first row leaves a byte it does not take to the rows after it. -/
theorem firstReads_of_not_takes {r : TableRow} {rows : List TableRow} {b : Byte} {i : Instr} (h : ¬r.takes b = true)
    (hrest : FirstReads rows b i) : FirstReads (r :: rows) b i := by
  obtain ⟨q, hq, hread⟩ := hrest
  exact ⟨q, (List.find?_cons_of_neg (p := fun r : TableRow => r.takes b) h).trans hq, hread⟩

/-- A row for one byte is one test of the decoder. -/
theorem firstReads_fixed {name : String} {m : Mode} {p : Nat} {b' : Byte} {i k : Instr} {rows : List TableRow} {b : Byte}
    (hrest : FirstReads rows b k) :
    FirstReads (TableRow.fixed name m p b' i :: rows) b (if b = b' then i else k) := by
  split_ifs with hb
  · exact firstReads_of_takes (by rw [takes_fixed, decide_eq_true_iff]; exact hb)
  · exact firstReads_of_not_takes (by rw [takes_fixed, decide_eq_true_iff]; exact hb) hrest

/-- A row for a range of bytes is one test of the decoder. -/
theorem firstReads_range {name : String} {m : Mode} {p : Nat} {lo hi : Byte} {read : Byte → Instr} {k : Instr}
    {rows : List TableRow} {b : Byte} (hrest : FirstReads rows b k) :
    FirstReads (TableRow.range name m p lo hi read :: rows) b (if lo ≤ b && b ≤ hi then read b else k) := by
  split_ifs with hb
  · exact firstReads_of_takes ((takes_range ..).trans hb)
  · exact firstReads_of_not_takes (by rw [takes_range]; exact hb) hrest

/-- A catch-all row is the decoder's last case. -/
theorem firstReads_all {name : String} {m : Mode} {p : Nat} {read : Byte → Instr} {rows : List TableRow} {b : Byte} :
    FirstReads (TableRow.range name m p 0x00#8 0xFF#8 read :: rows) b (read b) := by
  have hlo : 0x00#8 ≤ b := BitVec.le_def.2 (Nat.zero_le _)
  have hhi : b ≤ 0xFF#8 := BitVec.le_def.2 (Nat.le_of_lt_succ b.isLt)
  exact firstReads_of_takes (by rw [takes_range, decide_eq_true hlo, decide_eq_true hhi]; rfl)

/-- The rows of mode `TOP_A` are the tests of `decodeTopA`, in its order (R56). -/
theorem firstReads_topA (b : Byte) : FirstReads (opcodeTable.filter fun r => r.mode = .topA) b (decodeTopA b) :=
  firstReads_fixed (firstReads_fixed firstReads_all)

/-- The rows of mode `TOP_B` are the tests of `decodeTopB`, in its order (R57). -/
theorem firstReads_topB (b : Byte) : FirstReads (opcodeTable.filter fun r => r.mode = .topB) b (decodeTopB b) :=
  firstReads_fixed (firstReads_fixed (firstReads_fixed (firstReads_fixed (firstReads_fixed (firstReads_fixed
    firstReads_all)))))

/-- The rows of mode `PARAM` are the tests of `decodeParam`, in its order (R58). -/
theorem firstReads_param (b : Byte) : FirstReads (opcodeTable.filter fun r => r.mode = .param) b (decodeParam b) :=
  firstReads_fixed (firstReads_range (firstReads_range (firstReads_range firstReads_all)))

/-- Settles O2: in each mode the priorities rise along the table, and the rows in that order are the decoder's tests. -/
theorem decodeMatchesOpcodeTable : Obligations.DecodeMatchesOpcodeTable := by
  unfold Obligations.DecodeMatchesOpcodeTable
  rintro m (rfl | rfl | rfl)
  · exact ⟨by decide, firstReads_topA⟩
  · exact ⟨by decide, firstReads_topB⟩
  · exact ⟨by decide, firstReads_param⟩

end Sys2Proof.Proofs
end

section
/-! The statements of the step (R7, R55), of the resets (R29, R74, R146) and of the top-level bytes (R72, R82, R90, R92, R94). -/

namespace Sys2Proof.Proofs

open Sys2Proof.Machine

/-! ### The step -/

/-- Without a byte the decoder holds its state (R144; log 8). -/
theorem step_of_input_nil {s : State} (h : s.input = []) : step s = .next s := by
  have hfetch : fetch s = ([], s) := by rw [fetch, h]
  rw [step, hfetch]
  rfl

/-- With a byte waiting the step decodes it in the state's mode and executes, the byte taken and its clock value set (R7,
R55). -/
theorem step_of_input_cons {s : State} {a : Arrival} {rest : List Arrival} (h : s.input = a :: rest) :
    step s = exec (decodeByte (decodeMode s) a.byte) (fed [a] rest s) := by
  have hfetch : fetch s = ([a.byte], fed [a] rest s) := by rw [fetch, h]; rfl
  rw [step, hfetch]
  rfl

/-- Settles O5: `decode` on the one byte reads what the step executes. -/
theorem stepRunsDecodedInstruction : Obligations.StepRunsDecodedInstruction := by
  unfold Obligations.StepRunsDecodedInstruction
  intro s a rest i hinput hdecode
  have hi : decodeByte (decodeMode s) a.byte = i := by
    rw [decode, Except.ok.injEq, Prod.mk.injEq] at hdecode
    exact hdecode.1
  rw [step_of_input_cons hinput, hi]
  rfl

/-- Settles O6: the empty queue gives no byte to decode. -/
theorem stepHoldsWithoutByte : Obligations.StepHoldsWithoutByte :=
  fun _ => step_of_input_nil

/-! ### The resets -/

/-- Power-on leaves the parser neutral in Phase A (R29). -/
theorem powerOnReset_idleA (s : State) : IdleA (powerOnReset s) := ⟨rfl, rfl, rfl, rfl, rfl, rfl, rfl⟩

/-- The machine at reset is in `IdleA` (R29). -/
theorem reset_idleA : IdleA State.reset := ⟨rfl, rfl, rfl, rfl, rfl, rfl, rfl⟩

/-- Settles O10: both resets write the neutral registers, and LATCH_TIME_INIT of `Config.params` is 0. -/
theorem powerOnResetValues : Obligations.PowerOnResetValues :=
  ⟨fun s => ⟨powerOnReset_idleA s, powerOnReset_latchTime s⟩, reset_idleA, rfl⟩

/-- Settles O11: the fields of the environment are not among those that power-on reset writes. -/
theorem powerOnResetKeepsEnvironment : Obligations.PowerOnResetKeepsEnvironment :=
  fun s => ⟨powerOnReset_strip s, powerOnReset_now s, powerOnReset_input s, powerOnReset_events s, powerOnReset_params s⟩

/-- Settles O12: the six registers of `ParserReset()` are those that `Neutral` speaks of. -/
theorem parserResetIsNeutral : Obligations.ParserResetIsNeutral :=
  fun s => ⟨parserReset_neutral s, rfl⟩

/-- A neutral parser has nothing to reset (R74). -/
theorem parserReset_of_neutral {s : State} (h : Neutral s) : parserReset s = s := by
  obtain ⟨initialized, hasCommand, command, hasNumParam, numParam, paramPos, colorParam⟩ := s
  obtain ⟨rfl, rfl, rfl, rfl, rfl, rfl⟩ := h
  rfl

/-- The reset returns to the top level of Phase A (R74). -/
theorem parserReset_idleA {s : State} (h : s.initialized = false) : IdleA (parserReset s) := ⟨h, parserReset_neutral s⟩

/-- The reset returns to the top level of Phase B (R74). -/
theorem parserReset_idleB {s : State} (h : s.initialized = true) : IdleB (parserReset s) := ⟨h, parserReset_neutral s⟩

/-! ### The top-level bytes -/

/-- VERSION_A is the VERSION report (R82). -/
theorem exec_versionA (s : State) : exec .versionA s = .next (reportVersion s) := rfl

/-- VERSION_B is the VERSION report (R90). -/
theorem exec_versionB (s : State) : exec .versionB s = .next (reportVersion s) := rfl

/-- The VERSION report is one event and a reset (R82, R90). -/
theorem reportVersion_eq (s : State) :
    reportVersion s = parserReset { s with events := s.events ++ [versionEvent s.params] } := rfl

/-- From a neutral state the VERSION report changes the event list only (R82, R90). -/
theorem reportVersion_of_neutral {s : State} (h : Neutral s) :
    reportVersion s = { s with events := s.events ++ [versionEvent s.params] } :=
  (reportVersion_eq s).trans (parserReset_of_neutral h)

/-- Settles O17: both rows are the one report, whose reset finds a neutral parser neutral already. -/
theorem versionReports : Obligations.VersionReports := by
  unfold Obligations.VersionReports
  intro i s hi
  have hexec : exec i s = .next (reportVersion s) := by
    obtain rfl | rfl := hi
    · exact exec_versionA s
    · exact exec_versionB s
  rw [hexec]
  exact ⟨by rw [reportVersion_eq], fun hneutral => by rw [reportVersion_of_neutral hneutral]⟩

/-- UNRECOGNIZED_B is the silent reset (R94). -/
theorem exec_unrecognizedB (b : Byte) (s : State) : exec (.unrecognizedB b) s = .next (parserReset s) := rfl

/-- Settles O19: the six command bytes are the only ones with a row before the catch-all row of `TOP_B`, and its reset leaves
`IdleB` as it is. -/
theorem unrecognizedByteResetsSilently : Obligations.UnrecognizedByteResetsSilently := by
  unfold Obligations.UnrecognizedByteResetsSilently
  intro b hb
  refine ⟨decodeByte_topB_of_not_isCommandB hb, fun s => ⟨exec_unrecognizedB b s, fun hidle => ?_⟩⟩
  obtain ⟨_, hneutral⟩ := hidle
  rw [exec_unrecognizedB, parserReset_of_neutral hneutral]

/-- ABORT is the silent reset (R72). -/
theorem exec_abort (s : State) : exec .abort s = .next (parserReset s) := rfl

/-- Settles O20: a pending command selects mode `PARAM`, where `'I'` aborts, and the reset keeps the phase. -/
theorem abortDiscardsCommand : Obligations.AbortDiscardsCommand := by
  unfold Obligations.AbortDiscardsCommand
  intro s
  refine ⟨fun hpending => ?_, exec_abort s, parserReset_idleA, parserReset_idleB⟩
  rw [decodeMode_of_hasCommand hpending, decodeByte_param_byteI]

/-! ### The latch -/

/-- The rate limiter in numbers (R123, R124). -/
theorem latchAllowed_iff_toNat (s : State) :
    latchAllowed s = true ↔ s.params.latchTimeoutMs.toNat < (s.now - s.latchTime).toNat :=
  (latchAllowed_iff s).trans BitVec.lt_def

/-- The one event of a latch (R121): the transmit, or the report that refuses it. -/
def latchEvent (s : State) : Event := if latchAllowed s then .showFrame else .diag .elt

/-- A latch in one equation (R121, R122): the frame shown and `latchTime` change with the transmit only. -/
theorem latch_eq (s : State) :
    latch s =
      { s with
        strip := { s.strip with shown := if latchAllowed s then s.strip.pixels else s.strip.shown }
        events := s.events ++ [latchEvent s]
        latchTime := if latchAllowed s then s.now else s.latchTime } := by
  obtain ⟨hallowed, hlatch⟩ | ⟨hrefused, hlatch⟩ := latch_cases s
  · simp [hlatch, latchEvent, hallowed]
  · simp [hlatch, latchEvent, hrefused]

/-- A latch that the rate limiter lets pass (R121, R122). -/
theorem latch_of_allowed {s : State} (h : latchAllowed s = true) :
    latch s =
      { s with
        strip := { s.strip with shown := s.strip.pixels }, events := s.events ++ [.showFrame], latchTime := s.now } := by
  rw [latch_eq, latchEvent]
  simp only [h, if_true]

/-- A latch that the rate limiter refuses (R121, R125). -/
theorem latch_of_refused {s : State} (h : ¬latchAllowed s = true) :
    latch s = { s with events := s.events ++ [.diag .elt] } := by
  rw [latch_eq, latchEvent]
  simp only [h, if_false, Bool.false_eq_true]

/-- LATCH_FRAME is the latch and the reset (R92). -/
theorem exec_latchFrame (s : State) : exec .latchFrame s = .next (parserReset (latch s)) := rfl

/-- Settles O21: the two clauses are the two values of the rate limiter. -/
theorem latchFrameTransmitsOrRefuses : Obligations.LatchFrameTransmitsOrRefuses := by
  unfold Obligations.LatchFrameTransmitsOrRefuses
  refine ⟨rfl, fun s => ⟨fun hlt => ?transmits, fun hle => ?refuses⟩⟩
  case transmits => rw [exec_latchFrame, latch_of_allowed ((latchAllowed_iff_toNat s).2 hlt)]
  case refuses =>
    have hrefused : ¬latchAllowed s = true := fun h => Nat.not_lt.2 hle ((latchAllowed_iff_toNat s).1 h)
    rw [exec_latchFrame, latch_of_refused hrefused]

/-! ### The status text -/

/-- Settles O57: the nine templates written out; `diagText` and `asciiBytes` evaluate on them whatever the free spellings of
Config are. -/
theorem diagnosticLines : Obligations.DiagnosticLines := by
  unfold Obligations.DiagnosticLines
  exact ⟨fun _ => rfl, rfl, fun _ _ _ => rfl, fun _ => rfl, fun _ => rfl, fun _ _ => rfl, fun _ => rfl, rfl, rfl,
    fun _ => rfl, fun _ _ _ _ _ => rfl⟩

end Sys2Proof.Proofs
end

section
/-! The statements of the accumulators: the values of completed fields (R113 to R115) and the round trip (R117). -/

namespace Sys2Proof.Proofs

open Sys2Proof.Machine

/-! ### The accumulators -/

/-- The digit merged at an even cursor stands in the high half of the low byte (R113, R114). -/
theorem mergedDigit_even {w : Nat} {pos : BitVec 8} (hw : 8 ≤ w) (h : pos.getLsbD 0 = false) (n : Nibble) :
    (mergedDigit w pos n).toNat = 16 * n.toNat := by
  have hn := n.isLt
  have h8 : 2 ^ 8 ≤ 2 ^ w := Nat.pow_le_pow_right (by decide) hw
  rw [mergedDigit, h, if_neg Bool.false_ne_true, BitVec.toNat_shiftLeft, BitVec.toNat_setWidth, Nat.shiftLeft_eq,
    Nat.mod_eq_of_lt (by omega : n.toNat < 2 ^ w), Nat.mod_eq_of_lt (by omega)]
  omega

/-- The digit merged at an odd cursor stands in the low half of the low byte (R113, R114). -/
theorem mergedDigit_odd {w : Nat} {pos : BitVec 8} (hw : 8 ≤ w) (h : pos.getLsbD 0 = true) (n : Nibble) :
    (mergedDigit w pos n).toNat = n.toNat := by
  have hn := n.isLt
  have h8 : 2 ^ 8 ≤ 2 ^ w := Nat.pow_le_pow_right (by decide) hw
  rw [mergedDigit, h, if_pos rfl, BitVec.toNat_setWidth, Nat.mod_eq_of_lt (by omega)]

/-- An even digit merged into an accumulator whose low byte is empty is added (R113, R114). -/
theorem toNat_or_mergedDigit_even {w x : Nat} {v : BitVec w} {pos : BitVec 8} (hw : 8 ≤ w) (hpos : pos.getLsbD 0 = false)
    (hv : v.toNat = 2 ^ 8 * x) (n : Nibble) : (v ||| mergedDigit w pos n).toNat = 2 ^ 8 * x + 16 * n.toNat := by
  have hn := n.isLt
  rw [BitVec.toNat_or, hv, mergedDigit_even hw hpos]
  exact (Nat.two_pow_add_eq_or_of_lt (by omega) x).symm

/-- An odd digit merged into an accumulator whose low half-byte is empty is added (R113, R114). -/
theorem toNat_or_mergedDigit_odd {w x : Nat} {v : BitVec w} {pos : BitVec 8} (hw : 8 ≤ w) (hpos : pos.getLsbD 0 = true)
    (hv : v.toNat = 2 ^ 4 * x) (n : Nibble) : (v ||| mergedDigit w pos n).toNat = 2 ^ 4 * x + n.toNat := by
  have hn := n.isLt
  rw [BitVec.toNat_or, hv, mergedDigit_odd hw hpos]
  exact (Nat.two_pow_add_eq_or_of_lt (by omega) x).symm

/-- The shift that makes room for the next byte loses nothing while that byte fits (R113, R114). -/
theorem toNat_shiftLeft_eight {w : Nat} {v : BitVec w} (h : 2 ^ 8 * v.toNat < 2 ^ w) :
    (v <<< 8).toNat = 2 ^ 8 * v.toNat := by
  rw [BitVec.toNat_shiftLeft, Nat.shiftLeft_eq, Nat.mul_comm, Nat.mod_eq_of_lt h]

/-- The first digit of a number replaces what the accumulator held (R113). -/
theorem nextNum_first (v : U16) (n : Nibble) : nextNum 0#8 v n = 0#16 ||| mergedDigit 16 0#8 n := rfl

/-- The third digit of a number makes room for its byte (R113). -/
theorem nextNum_shift (v : U16) (n : Nibble) : nextNum 2#8 v n = v <<< 8 ||| mergedDigit 16 2#8 n := rfl

/-- The second digit of each byte of a number only merges (R113). -/
theorem nextNum_merge {p : BitVec 8} (hp : p = 1#8 ∨ p = 3#8) (v : U16) (n : Nibble) :
    nextNum p v n = v ||| mergedDigit 16 p n := by
  obtain rfl | rfl := hp <;> rfl

/-- The first digit of a colour replaces what the accumulator held (R114). -/
theorem nextColor_first (v : U32) (n : Nibble) : nextColor 0#8 v n = 0#32 ||| mergedDigit 32 0#8 n := rfl

/-- The third and the fifth digit of a colour make room for their byte (R114). -/
theorem nextColor_shift {p : BitVec 8} (hp : p = 2#8 ∨ p = 4#8) (v : U32) (n : Nibble) :
    nextColor p v n = v <<< 8 ||| mergedDigit 32 p n := by
  obtain rfl | rfl := hp <;> rfl

/-- The second digit of each byte of a colour only merges (R114). -/
theorem nextColor_merge {p : BitVec 8} (hp : p = 1#8 ∨ p = 3#8 ∨ p = 5#8) (v : U32) (n : Nibble) :
    nextColor p v n = v ||| mergedDigit 32 p n := by
  obtain rfl | rfl | rfl := hp <;> rfl

/-- Two digits merged into an accumulator whose low byte is empty fill that byte (R113, R114). -/
theorem toNat_or_two_digits {w x : Nat} {v : BitVec w} {p q : BitVec 8} (hw : 8 ≤ w) (hp : p.getLsbD 0 = false)
    (hq : q.getLsbD 0 = true) (hv : v.toNat = 2 ^ 8 * x) (a b : Nibble) :
    ((v ||| mergedDigit w p a) ||| mergedDigit w q b).toNat = 16 * (16 * x + a.toNat) + b.toNat := by
  have heven := toNat_or_mergedDigit_even hw hp hv a
  rw [toNat_or_mergedDigit_odd (x := 16 * x + a.toNat) hw hq (by omega) b]
  rfl

/-- `numParam` after four digits (R113, R115): two bytes of two digits each. -/
theorem nextNum_toNat (v : U16) (b0 b1 b2 b3 : Byte) :
    (nextNum 3#8 (nextNum 2#8 (nextNum 1#8 (nextNum 0#8 v (hexVal b0)) (hexVal b1)) (hexVal b2)) (hexVal b3)).toNat
      = fieldValue [b0, b1, b2, b3] := by
  have h0 := (hexVal b0).isLt
  have h1 := (hexVal b1).isLt
  rw [nextNum_first, nextNum_merge (by decide) _ (hexVal b1), nextNum_shift, nextNum_merge (by decide) _ (hexVal b3)]
  have hbyte1 := toNat_or_two_digits (w := 16) (v := 0#16) (p := 0#8) (q := 1#8) (x := 0) (by decide) rfl rfl rfl
    (hexVal b0) (hexVal b1)
  generalize (0#16 ||| mergedDigit 16 0#8 (hexVal b0)) ||| mergedDigit 16 1#8 (hexVal b1) = v1 at hbyte1 ⊢
  rw [toNat_or_two_digits (by decide) rfl rfl (toNat_shiftLeft_eight (by omega)), hbyte1]
  rfl

/-- `colorParam` after six digits (R114, R115): three bytes of two digits each. -/
theorem nextColor_toNat (v : U32) (b0 b1 b2 b3 b4 b5 : Byte) :
    (nextColor 5#8 (nextColor 4#8 (nextColor 3#8 (nextColor 2#8 (nextColor 1#8 (nextColor 0#8 v
        (hexVal b0)) (hexVal b1)) (hexVal b2)) (hexVal b3)) (hexVal b4)) (hexVal b5)).toNat
      = fieldValue [b0, b1, b2, b3, b4, b5] := by
  have h0 := (hexVal b0).isLt
  have h1 := (hexVal b1).isLt
  have h2 := (hexVal b2).isLt
  have h3 := (hexVal b3).isLt
  rw [nextColor_first, nextColor_merge (by decide) _ (hexVal b1), nextColor_shift (by decide) _ (hexVal b2),
    nextColor_merge (by decide) _ (hexVal b3), nextColor_shift (by decide) _ (hexVal b4),
    nextColor_merge (by decide) _ (hexVal b5)]
  have hbyte1 := toNat_or_two_digits (w := 32) (v := 0#32) (p := 0#8) (q := 1#8) (x := 0) (by decide) rfl rfl rfl
    (hexVal b0) (hexVal b1)
  generalize (0#32 ||| mergedDigit 32 0#8 (hexVal b0)) ||| mergedDigit 32 1#8 (hexVal b1) = v1 at hbyte1 ⊢
  have hbyte2 := toNat_or_two_digits (w := 32) (v := v1 <<< 8) (p := 2#8) (q := 3#8) (by decide) rfl rfl
    (toNat_shiftLeft_eight (by omega)) (hexVal b2) (hexVal b3)
  generalize (v1 <<< 8 ||| mergedDigit 32 2#8 (hexVal b2)) ||| mergedDigit 32 3#8 (hexVal b3) = v2 at hbyte2 ⊢
  rw [toNat_or_two_digits (by decide) rfl rfl (toNat_shiftLeft_eight (by omega)), hbyte2, hbyte1]
  rfl

/-- A word is the number it holds. -/
theorem eq_ofNat_of_toNat_eq {w n : Nat} {v : BitVec w} (h : v.toNat = n) : v = BitVec.ofNat w n := by
  rw [← h, BitVec.ofNat_toNat, BitVec.setWidth_eq]

/-- Settles O25: from cursor 0 the four digits are merged at the cursors 0 to 3, and the sum of the merges is the field's
value, which 16 bits hold. -/
theorem numericFieldValue : Obligations.NumericFieldValue := by
  unfold Obligations.NumericFieldValue
  intro s b0 b1 b2 b3 hpos
  have hvalue : nextNum 3#8 (nextNum 2#8 (nextNum 1#8 (nextNum 0#8 s.numParam (hexVal b0)) (hexVal b1)) (hexVal b2))
      (hexVal b3) = BitVec.ofNat 16 (fieldValue [b0, b1, b2, b3]) :=
    eq_ofNat_of_toNat_eq (nextNum_toNat ..)
  rw [← hvalue]
  simp only [accumulateNum, hpos]
  rfl

/-- Settles O26: from cursor 0 the six digits are merged at the cursors 0 to 5, and the sum of the merges is the field's
value. -/
theorem colorFieldValue : Obligations.ColorFieldValue := by
  unfold Obligations.ColorFieldValue
  intro s b0 b1 b2 b3 b4 b5 hpos
  have hvalue : nextColor 5#8 (nextColor 4#8 (nextColor 3#8 (nextColor 2#8 (nextColor 1#8 (nextColor 0#8 s.colorParam
      (hexVal b0)) (hexVal b1)) (hexVal b2)) (hexVal b3)) (hexVal b4)) (hexVal b5)
      = BitVec.ofNat 32 (fieldValue [b0, b1, b2, b3, b4, b5]) :=
    eq_ofNat_of_toNat_eq (nextColor_toNat ..)
  rw [← hvalue]
  simp only [accumulateColor, hpos]
  rfl

/-! ### Round trip of hex digits -/

/-- The hex digit at the bit `i` of a number. -/
theorem extractLsb'_four_toNat {w : Nat} (v : BitVec w) (i : Nat) : (v.extractLsb' i 4).toNat = v.toNat / 2 ^ i % 16 := by
  rw [BitVec.extractLsb'_toNat, Nat.shiftRight_eq_div_pow]

/-- HexVal gives a nibble back from its digit byte of either case (R111), over the 16 nibbles. -/
theorem hexVal_digit (n : Nibble) :
    (n ≤ 9#4 → hexVal (0x30#8 + n.setWidth 8) = n)
      ∧ (10#4 ≤ n → hexVal (0x37#8 + n.setWidth 8) = n ∧ hexVal (0x57#8 + n.setWidth 8) = n) := by
  revert n
  decide

/-- Settles O27: the digits are the quotients of the value by the powers of 16, and the field's value puts them together. -/
theorem hexDigitsRoundTrip : Obligations.HexDigitsRoundTrip := by
  unfold Obligations.HexDigitsRoundTrip
  refine ⟨fun v b0 b1 b2 b3 h0 h1 h2 h3 => ?four, fun v b0 b1 b2 b3 b4 b5 h0 h1 h2 h3 h4 h5 => ?six, hexVal_digit⟩
  case four =>
    have hv := v.isLt
    simp only [fieldValue, List.foldl_cons, List.foldl_nil, h0, h1, h2, h3, extractLsb'_four_toNat]
    omega
  case six =>
    have hv := v.isLt
    simp only [fieldValue, List.foldl_cons, List.foldl_nil, h0, h1, h2, h3, h4, h5, extractLsb'_four_toNat]
    omega

end Sys2Proof.Proofs
end

section
/-! The statements of the completions: the length field (R85), the numeric field in Phase B (R97 to R102) and the colour field
(R100, R103, R105). -/

namespace Sys2Proof.Proofs

open Sys2Proof.Machine

/-! ### The length field -/

/-- The report that ends an INIT in Phase A (R85). -/
def initReport (count : U16) : Diag := if count = 0#16 then .initFailed else .initOk count

/-- `CompleteInitA()` in one equation (R85): the strip's new count and buffer, the two events, the reset. -/
theorem finishInitA_eq (s : State) :
    finishInitA s =
      parserReset
        { s with
          initialized := if stripResize s.params s.numParam = 0#16 then s.initialized else true
          strip :=
            { s.strip with
              pixelCount := stripResize s.params s.numParam
              pixels := Memory.ofEntries (Config.pixelsAfterResize s.numParam s.strip.pixels) }
          events :=
            s.events ++ [.setLength s.numParam, .diag (initReport (stripResize s.params s.numParam))] } := by
  obtain ⟨hcount, hfinish⟩ | ⟨hcount, hfinish⟩ := finishInitA_cases s
  · simp [hfinish, initReport, hcount, raiseDiag_eq, stripSetLength, emit]
  · simp [hfinish, initReport, hcount, raiseDiag_eq, stripSetLength, emit]

/-- COMPLETE_INIT_A takes the fourth digit and sizes the strip (R85). -/
theorem exec_completeInitA (b : Byte) (s : State) :
    exec (.completeInitA b) s = .next (finishInitA (accumulateNum (hexVal b) s)) := rfl

/-- Settles O28: `finishInitA_eq` on the state after the fourth digit, whose registers the reset hides. -/
theorem initCompletionConfiguresStrip : Obligations.InitCompletionConfiguresStrip := by
  unfold Obligations.InitCompletionConfiguresStrip
  rintro b s v count rfl rfl
  rw [exec_completeInitA, finishInitA_eq]
  rfl

/-! ### The numeric field -/

theorem not_exceedsCount_iff (s : State) : ¬exceedsCount s = true ↔ s.numParam ≤ s.strip.pixelCount := by
  rw [exceedsCount_iff, BitVec.not_lt]

theorem indexEqualsCount_iff (s : State) : indexEqualsCount s = true ↔ s.numParam = s.strip.pixelCount := beq_iff_eq

/-- A number above the count is the error ENP whatever the command (R97). -/
theorem finishNumB_of_exceeds {s : State} (h : s.strip.pixelCount < s.numParam) :
    finishNumB s = raiseDiag (.enp s.numParam s.command) s := if_pos ((exceedsCount_iff s).2 h)

/-- Within the count SHADE and PIXEL go on to `EnterColor()` (R97). -/
theorem finishNumB_of_color {s : State} (hcommand : s.command = byteS ∨ s.command = byteP)
    (hle : s.numParam ≤ s.strip.pixelCount) : finishNumB s = finishEnterColor s := by
  rw [finishNumB, if_neg ((not_exceedsCount_iff s).2 hle)]
  obtain hS | hP := hcommand
  · rw [hS]; rfl
  · rw [hP]; rfl

/-- Within the count RAW_FRAME goes on to its stub (R97). -/
theorem finishNumB_of_raw {s : State} (hcommand : s.command = byteW) (hle : s.numParam ≤ s.strip.pixelCount) :
    finishNumB s = finishRawFrame s := by
  rw [finishNumB, if_neg ((not_exceedsCount_iff s).2 hle), hcommand]
  rfl

/-- Within the count any other command goes on to the unknown command (R97, R102). -/
theorem finishNumB_of_unknown {s : State} (hI : s.command ≠ byteI) (hS : s.command ≠ byteS) (hP : s.command ≠ byteP)
    (hW : s.command ≠ byteW) (hle : s.numParam ≤ s.strip.pixelCount) : finishNumB s = finishUnknown s := by
  rw [finishNumB, if_neg ((not_exceedsCount_iff s).2 hle), if_neg hI, if_neg hS, if_neg hP, if_neg hW]

/-- PIXEL's index equal to the count is the error where the guard is made at the end of the number (R99). -/
theorem finishEnterColor_of_guard {s : State} (hP : s.command = byteP)
    (hpoint : s.params.pixelGuardPoint = .atParamComplete) (heq : s.numParam = s.strip.pixelCount) :
    finishEnterColor s = raiseDiag (.enpEq s.numParam) s := if_pos ⟨hP, hpoint, (indexEqualsCount_iff s).2 heq⟩

/-- Where the guard does not fail the colour field begins (R99). -/
theorem finishEnterColor_of_passes {s : State}
    (h : ¬(s.command = byteP ∧ s.params.pixelGuardPoint = .atParamComplete ∧ s.numParam = s.strip.pixelCount)) :
    finishEnterColor s = { s with hasNumParam := true, paramPos := 0#8 } := by
  rw [← indexEqualsCount_iff] at h
  exact if_neg h

/-- ENTER_COLOR takes the fourth digit and makes the guard or begins the colour field (R99). -/
theorem exec_enterColor (b : Byte) (s : State) :
    exec (.enterColor b) s = .next (finishEnterColor (accumulateNum (hexVal b) s)) := rfl

/-- COMPLETE_RAW_FRAME takes the fourth digit and emits the marker (R101). -/
theorem exec_completeRawFrame (b : Byte) (s : State) :
    exec (.completeRawFrame b) s = .next (finishRawFrame (accumulateNum (hexVal b) s)) := rfl

/-- COMPLETE_UNKNOWN takes the fourth digit and reports the command (R102). -/
theorem exec_completeUnknown (b : Byte) (s : State) :
    exec (.completeUnknown b) s = .next (finishUnknown (accumulateNum (hexVal b) s)) := rfl

/-- COMPLETE_NUM_B under SHADE or PIXEL, within the count, is ENTER_COLOR (R97). -/
theorem exec_completeNumB_of_color {b : Byte} {s : State} (hcommand : s.command = byteS ∨ s.command = byteP)
    (hle : (accumulateNum (hexVal b) s).numParam ≤ s.strip.pixelCount) :
    exec (.completeNumB b) s = exec (.enterColor b) s := by
  rw [exec_completeNumB, exec_enterColor, finishNumB_of_color (s := accumulateNum (hexVal b) s) hcommand hle]

/-- COMPLETE_NUM_B under INIT, within the count, is COMPLETE_REINIT_B (R97). -/
theorem exec_completeNumB_of_init {b : Byte} {s : State} (hcommand : s.command = byteI)
    (hle : (accumulateNum (hexVal b) s).numParam ≤ s.strip.pixelCount) :
    exec (.completeNumB b) s = exec (.completeReinitB b) s := by
  rw [exec_completeNumB, exec_completeReinitB, finishNumB_of_init (s := accumulateNum (hexVal b) s) hcommand hle]

/-- COMPLETE_NUM_B under RAW_FRAME, within the count, is COMPLETE_RAW_FRAME (R97). -/
theorem exec_completeNumB_of_raw {b : Byte} {s : State} (hcommand : s.command = byteW)
    (hle : (accumulateNum (hexVal b) s).numParam ≤ s.strip.pixelCount) :
    exec (.completeNumB b) s = exec (.completeRawFrame b) s := by
  rw [exec_completeNumB, exec_completeRawFrame, finishNumB_of_raw (s := accumulateNum (hexVal b) s) hcommand hle]

/-- COMPLETE_NUM_B under any other command, within the count, is COMPLETE_UNKNOWN (R97). -/
theorem exec_completeNumB_of_unknown {b : Byte} {s : State} (hI : s.command ≠ byteI) (hS : s.command ≠ byteS)
    (hP : s.command ≠ byteP) (hW : s.command ≠ byteW)
    (hle : (accumulateNum (hexVal b) s).numParam ≤ s.strip.pixelCount) :
    exec (.completeNumB b) s = exec (.completeUnknown b) s := by
  rw [exec_completeNumB, exec_completeUnknown, finishNumB_of_unknown (s := accumulateNum (hexVal b) s) hI hS hP hW hle]

/-- Settles O29: the exceeds check first, then one lemma for each of the four ways on. -/
theorem numericCompletionChecksCount : Obligations.NumericCompletionChecksCount := by
  unfold Obligations.NumericCompletionChecksCount
  rintro b s v rfl
  refine ⟨fun hlt => ?_, fun hle => ⟨fun hI => exec_completeNumB_of_init hI hle,
    fun hcolor => exec_completeNumB_of_color hcolor hle, fun hW => exec_completeNumB_of_raw hW hle,
    fun hI hS hP hW => exec_completeNumB_of_unknown hI hS hP hW hle⟩⟩
  rw [exec_completeNumB, finishNumB_of_exceeds (s := accumulateNum (hexVal b) s) hlt, raiseDiag_accumulateNum, raiseDiag_eq]
  rfl

/-- Settles O32: the two branches of `EnterColor()` on the state after the fourth digit. -/
theorem enterColorOrGuard : Obligations.EnterColorOrGuard := by
  unfold Obligations.EnterColorOrGuard
  rintro b s v rfl
  rw [exec_enterColor]
  refine ⟨fun hguard => ?fails, fun hpasses => ?passes⟩
  case fails =>
    obtain ⟨hP, hpoint, heq⟩ := hguard
    rw [finishEnterColor_of_guard (s := accumulateNum (hexVal b) s) hP hpoint heq, raiseDiag_accumulateNum, raiseDiag_eq]
  case passes =>
    rw [finishEnterColor_of_passes (s := accumulateNum (hexVal b) s) hpasses]
    rfl

/-- Settles O33: the stub is one report, which resets. -/
theorem rawFrameIsAStub : Obligations.RawFrameIsAStub := by
  unfold Obligations.RawFrameIsAStub
  intro b s
  rw [exec_completeRawFrame, finishRawFrame, raiseDiag_accumulateNum, raiseDiag_eq]

/-- Settles O34: the unknown command is one report, which resets. -/
theorem unknownCommandReported : Obligations.UnknownCommandReported := by
  unfold Obligations.UnknownCommandReported
  intro b s
  rw [exec_completeUnknown, finishUnknown, raiseDiag_accumulateNum, raiseDiag_eq, accumulateNum_command]

/-- Settles O30: within the count COMPLETE_NUM_B is the command's own row, whose effect is `reinitReportsWithoutResize`,
`enterColorOrGuard` or `rawFrameIsAStub`; for PIXEL an index below the count passes the guard wherever it is made. -/
theorem numericCompletionWithinCount : Obligations.NumericCompletionWithinCount := by
  unfold Obligations.NumericCompletionWithinCount
  rintro b s v rfl hle
  refine ⟨fun hI => ?init, fun hcolor => ?color, fun hW => ?raw⟩
  case init =>
    obtain ⟨hreinit, _⟩ := reinitReportsWithoutResize b s
    rw [exec_completeNumB_of_init hI hle, hreinit]
  case color =>
    have hcommand : s.command = byteS ∨ s.command = byteP := hcolor.imp_right And.left
    have hpasses : ¬(s.command = byteP ∧ s.params.pixelGuardPoint = .atParamComplete
        ∧ (accumulateNum (hexVal b) s).numParam = s.strip.pixelCount) := by
      rintro ⟨hP, _, heq⟩
      obtain hS | ⟨_, hne⟩ := hcolor
      · exact absurd (hS.symm.trans hP) (by decide)
      · exact hne heq
    obtain ⟨_, henter⟩ := enterColorOrGuard b s _ rfl
    rw [exec_completeNumB_of_color hcommand hle, henter hpasses]
  case raw => rw [exec_completeNumB_of_raw hW hle, rawFrameIsAStub]

/-! ### The colour field -/

/-- PIXEL_GUARD_LATE takes the byte unless the index equals the count (R100). -/
theorem exec_pixelGuardLate (b : Byte) (s : State) :
    exec (.pixelGuardLate b) s =
      .next (if indexEqualsCount s then failLateGuard s else accumulateColor (hexVal b) s) := rfl

/-- DIGIT_B_COLOR takes the byte unless the late guard fails (R96). -/
theorem exec_digitBColor (b : Byte) (s : State) :
    exec (.digitBColor b) s =
      .next (if lateGuardDue s && indexEqualsCount s then failLateGuard s else accumulateColor (hexVal b) s) := rfl

/-- COMPLETE_SHADE takes the sixth digit, fills and latches (R105). -/
theorem exec_completeShade (b : Byte) (s : State) :
    exec (.completeShade b) s = finishShade (accumulateColor (hexVal b) s) := rfl

/-- The failing late guard is one report and a reset (R100). -/
theorem failLateGuard_eq (s : State) :
    failLateGuard s = parserReset { s with events := s.events ++ [.diag (.enpEq s.numParam)] } := raiseDiag_eq _ s

/-- Settles O35: the two branches of the guard. -/
theorem latePixelGuard : Obligations.LatePixelGuard := by
  unfold Obligations.LatePixelGuard
  intro b s
  refine ⟨fun heq => ?_, fun hne => ?_⟩
  · rw [exec_pixelGuardLate, if_pos ((indexEqualsCount_iff s).2 heq), failLateGuard_eq]
  · rw [exec_pixelGuardLate, if_neg (mt (indexEqualsCount_iff s).1 hne)]
    rfl

/-- A colour field pending under SHADE goes to `CompleteShade()` (R103). -/
theorem finishColorB_of_shade {s : State} (h : s.command = byteS) : finishColorB s = finishShade s := by
  rw [finishColorB, h]
  rfl

/-- Within the count `CompleteShade()` fills, latches and resets (R105). -/
theorem finishShade_of_le {s : State} (h : s.numParam ≤ s.strip.pixelCount) :
    finishShade s = .next (parserReset (latch (fillPixels s.colorParam s.numParam.toNat s))) := if_pos h

/-- The SetPixel requests of a fill, in rising order (R105, D15). -/
def fillEvents (c : U32) (n : Nat) : List Event := (List.range n).map fun k => .setPixel (BitVec.ofNat 16 k) c

/-- The buffer after a fill. -/
def filledPixels (c : U32) (n : Nat) (s : State) : Memory := (fillPixels c n s).strip.pixels

/-- What an index reads in the buffer after the fill of a u16 number of pixels. -/
theorem filledPixels_read (c : U32) (n : U16) (s : State) (a : Nat) :
    (filledPixels c n.toNat s).read a = if a < n.toNat then some c else s.strip.pixels.read a :=
  fillPixels_read c n.toNat n.isLt.le s a

/-- A fill and a latch in one equation (R105, R121): the requests in order, and the frame shown is the filled buffer. -/
theorem latch_fillPixels (c : U32) (n : Nat) (s : State) :
    latch (fillPixels c n s) =
      { s with
        strip :=
          { s.strip with
            pixels := filledPixels c n s
            shown := if latchAllowed s then filledPixels c n s else s.strip.shown }
        events := s.events ++ fillEvents c n ++ [latchEvent s]
        latchTime := if latchAllowed s then s.now else s.latchTime } := by
  rw [latch_eq, fillPixels_spec]
  rfl

/-- COMPLETE_COLOR_B under SHADE is COMPLETE_SHADE (R103). -/
theorem exec_completeColorB_of_shade {b : Byte} {s : State} (h : s.command = byteS) :
    exec (.completeColorB b) s = exec (.completeShade b) s := finishColorB_of_shade h

/-- What a latch's event is, by the elapsed time (R121). -/
theorem latchEvent_eq {s : State} {shows : Bool}
    (h : shows = decide (s.params.latchTimeoutMs.toNat < (s.now - s.latchTime).toNat)) :
    latchAllowed s = shows ∧ latchEvent s = if shows then .showFrame else .diag .elt := by
  have hshows : latchAllowed s = shows := by
    rw [h, Bool.eq_iff_iff, decide_eq_true_iff, latchAllowed_iff_toNat]
  exact ⟨hshows, by rw [latchEvent, hshows]⟩

/-- Settles O37: both instructions are the one fill and latch of `latch_fillPixels`, whose buffer `filledPixels_read` reads. -/
theorem shadeFillsAndLatches : Obligations.ShadeFillsAndLatches := by
  unfold Obligations.ShadeFillsAndLatches
  rintro b i s c shows hi rfl hle hshows
  have hshade : exec i s = exec (.completeShade b) s := by
    obtain rfl | ⟨rfl, hcommand⟩ := hi
    · rfl
    · exact exec_completeColorB_of_shade hcommand
  obtain ⟨hallowed, hevent⟩ := latchEvent_eq hshows
  refine ⟨filledPixels (accumulateColor (hexVal b) s).colorParam s.numParam.toNat (accumulateColor (hexVal b) s), ?_,
    filledPixels_read _ s.numParam (accumulateColor (hexVal b) s)⟩
  rw [hshade, exec_completeShade, finishShade_of_le (s := accumulateColor (hexVal b) s) hle, latch_fillPixels, ← hevent,
    ← hallowed]
  rfl

/-- An index not below the count stops `CompletePixel()` (R40, U6; log 10). -/
theorem finishPixel_of_le {s : State} (h : s.strip.pixelCount ≤ s.numParam) :
    finishPixel s = .refused (.pixelIndexOutOfRange s.numParam) := if_neg (BitVec.not_lt.2 h)

/-- A number above the count stops `CompleteShade()` (R40, U6; log 10). -/
theorem finishShade_of_lt {s : State} (h : s.strip.pixelCount < s.numParam) :
    finishShade s = .refused (.pixelIndexOutOfRange s.strip.pixelCount) := if_neg (BitVec.not_le.2 h)

/-- A colour field under another command stops `CompleteColorB()` (R103, U9; log 11). -/
theorem finishColorB_of_other {s : State} (hP : s.command ≠ byteP) (hS : s.command ≠ byteS) :
    finishColorB s = .refused (.noColorContinuation s.command) := by
  rw [finishColorB, if_neg hP, if_neg hS]

/-- Settles O38: the refusing branches of the three colour completions, none of which reads the last digit. -/
theorem colorCompletionStopsByName : Obligations.ColorCompletionStopsByName := by
  unfold Obligations.ColorCompletionStopsByName
  intro b s
  exact ⟨fun hle => finishPixel_of_le (s := accumulateColor (hexVal b) s) hle,
    fun hlt => finishShade_of_lt (s := accumulateColor (hexVal b) s) hlt,
    fun hP hS => finishColorB_of_other (s := accumulateColor (hexVal b) s) hP hS⟩

end Sys2Proof.Proofs
end

section
/-! The statements of the feed step (R71, R73), of the effect rows (R67) and of the digits that complete no field (R84, R96). -/

namespace Sys2Proof.Proofs

open Sys2Proof.Machine

/-! ### The cursor -/

/-- The cursor reaches the end of a numeric field from its last digit (R84, R96). -/
theorem add_one_eq_four_iff (p : BitVec 8) : p + 1#8 = 4#8 ↔ p = 3#8 := by
  constructor <;> intro h <;> bv_omega

/-- The cursor reaches the end of a colour field from its last digit (R96). -/
theorem add_one_eq_six_iff (p : BitVec 8) : p + 1#8 = 6#8 ↔ p = 5#8 := by
  constructor <;> intro h <;> bv_omega

/-! ### Part 3 of the feed step -/

/-- The late guard fails: it is due, and PIXEL's index is the count (R100). -/
def LateGuardFails (s : State) : Prop := lateGuardDue s = true ∧ s.numParam = s.strip.pixelCount

/-- The late guard is due in these terms (R71). -/
theorem lateGuardDue_iff (s : State) :
    lateGuardDue s = true ↔ s.params.pixelGuardPoint = .atFirstColorByte ∧ s.command = byteP ∧ s.paramPos = 0#8 := by
  simp only [lateGuardDue, Bool.and_eq_true, beq_iff_eq, and_assoc]

theorem lateGuardFails_iff (s : State) : LateGuardFails s ↔ lateGuardDue s = true ∧ indexEqualsCount s = true := by
  rw [LateGuardFails, indexEqualsCount_iff]

/-- A digit of the length field (R84, R85). -/
theorem takeDigit_length {s : State} (n : Nibble) (hA : s.initialized = false) :
    takeDigit n s = .next (if s.paramPos = 3#8 then finishInitA (accumulateNum n s) else accumulateNum n s) := by
  rw [takeDigit, if_pos hA, apply_ite Host.Outcome.next]
  exact if_congr (add_one_eq_four_iff s.paramPos) rfl rfl

/-- A digit of the numeric field in Phase B (R96, R97). -/
theorem takeDigit_num {s : State} (n : Nibble) (hB : s.initialized = true) (hnum : s.hasNumParam = false) :
    takeDigit n s = .next (if s.paramPos = 3#8 then finishNumB (accumulateNum n s) else accumulateNum n s) := by
  rw [takeDigit, if_neg (by simp [hB]), if_pos hnum, apply_ite Host.Outcome.next]
  exact if_congr (add_one_eq_four_iff s.paramPos) rfl rfl

/-- A colour digit that meets the failing late guard is not accumulated (R100). -/
theorem takeDigit_guard {s : State} (n : Nibble) (hB : s.initialized = true) (hcol : s.hasNumParam = true)
    (hguard : LateGuardFails s) : takeDigit n s = .next (failLateGuard s) := by
  rw [takeDigit, if_neg (by simp [hB]), if_neg (by simp [hcol]), if_pos ((lateGuardFails_iff s).1 hguard)]

/-- A digit of the colour field (R96, R103). -/
theorem takeDigit_color {s : State} (n : Nibble) (hB : s.initialized = true) (hcol : s.hasNumParam = true)
    (hguard : ¬LateGuardFails s) :
    takeDigit n s =
      if s.paramPos = 5#8 then finishColorB (accumulateColor n s) else .next (accumulateColor n s) := by
  rw [takeDigit, if_neg (by simp [hB]), if_neg (by simp [hcol]), if_neg (mt (lateGuardFails_iff s).2 hguard)]
  exact if_congr (add_one_eq_six_iff s.paramPos) rfl rfl

/-- A digit before the last of a numeric field, in either phase, only accumulates (R84, R96). -/
theorem takeDigit_num_before_last {s : State} (n : Nibble) (hnum : s.hasNumParam = false) (hpos : s.paramPos ≠ 3#8) :
    takeDigit n s = .next (accumulateNum n s) := by
  cases hphase : s.initialized with
  | false => rw [takeDigit_length n hphase, if_neg hpos]
  | true => rw [takeDigit_num n hphase hnum, if_neg hpos]

/-! ### The feed step is FeedByte -/

/-- The decode of mode `TOP_A` runs `TopA(b)` (R56, R71). -/
theorem exec_decodeTopA (b : Byte) (s : State) : exec (decodeTopA b) s = topA b s := by
  unfold decodeTopA topA
  split_ifs <;> rfl

/-- The decode of mode `TOP_B` runs `TopB(b)` (R57, R71). -/
theorem exec_decodeTopB (b : Byte) (s : State) : exec (decodeTopB b) s = topB b s := by
  unfold decodeTopB topB
  split_ifs <;> rfl

/-- Part 2 of `FeedByte` (R71): without a pending command the phase picks the table. -/
theorem feedByte_topLevel {b : Byte} {s : State} (h : s.hasCommand = false) :
    feedByte b s = if s.initialized = false then topA b s else topB b s := by
  rw [feedByte, if_neg (by simp [h]), if_pos h]

/-- Part 1 of `FeedByte` (R71): `'I'` with a command pending aborts. -/
theorem feedByte_abort {s : State} (h : s.hasCommand = true) : feedByte byteI s = .next (parserReset s) := if_pos ⟨h, rfl⟩

/-- Part 3 of `FeedByte` (R71): any other byte with a command pending is a digit, in the field that the phase and
`hasNumParam` pick. -/
theorem feedByte_digit {b : Byte} {s : State} (h : s.hasCommand = true) (hI : b ≠ byteI) :
    feedByte b s = takeDigit (hexVal b) s := by
  rw [feedByte, if_neg (fun habort => hI habort.2), if_neg (by simp [h])]
  cases hphase : s.initialized with
  | false =>
    rw [if_pos rfl, takeDigit_length _ hphase]
    exact congrArg Host.Outcome.next (if_congr (add_one_eq_four_iff s.paramPos) rfl rfl)
  | true =>
    rw [if_neg (by decide)]
    cases hfield : s.hasNumParam with
    | false =>
      rw [if_pos rfl, takeDigit_num _ hphase hfield]
      exact congrArg Host.Outcome.next (if_congr (add_one_eq_four_iff s.paramPos) rfl rfl)
    | true =>
      rw [if_neg (by decide)]
      have hguard : LateGuardFails s ↔ s.params.pixelGuardPoint = .atFirstColorByte ∧ s.command = byteP
          ∧ s.paramPos = 0#8 ∧ s.numParam = stripPixelCount s := by
        rw [LateGuardFails, lateGuardDue_iff, stripPixelCount_eq, and_assoc, and_assoc]
      by_cases hfails : LateGuardFails s
      · rw [takeDigit_guard _ hphase hfield hfails, if_pos (hguard.1 hfails)]
        rfl
      · rw [takeDigit_color _ hphase hfield hfails, if_neg (mt hguard.2 hfails)]
        exact if_congr (add_one_eq_six_iff s.paramPos) rfl rfl

/-- Decode in the mode of the state, then execute, is `FeedByte(b)` (R55, R71). -/
theorem exec_decodeByte_eq_feedByte (b : Byte) (s : State) : exec (decodeByte (decodeMode s) b) s = feedByte b s := by
  cases hpending : s.hasCommand with
  | false =>
    rw [feedByte_topLevel hpending, decodeMode, hpending, if_neg (by decide)]
    cases s.initialized with
    | false => exact exec_decodeTopA b s
    | true => exact exec_decodeTopB b s
  | true =>
    rw [decodeMode_of_hasCommand hpending]
    by_cases hI : b = byteI
    · rw [hI, feedByte_abort hpending, decodeByte_param_byteI, exec_abort]
    · rw [feedByte_digit hpending hI, exec_decodeByte_param_of_ne hI]

/-- Settles O7: the step decodes in the mode of the state and executes, which is `FeedByte` of the byte in the state after the
fetch. -/
theorem stepIsFeedByte : Obligations.StepIsFeedByte := by
  unfold Obligations.StepIsFeedByte
  intro s a rest hinput
  rw [step_of_input_cons hinput]
  exact exec_decodeByte_eq_feedByte a.byte (fed [a] rest s)

/-! ### The effect rows -/

theorem inLengthA_iff (s : State) : inLengthA s = true ↔ s.hasCommand = true ∧ s.initialized = false := by
  simp [inLengthA]

theorem inNumB_iff (s : State) :
    inNumB s = true ↔ s.hasCommand = true ∧ s.initialized = true ∧ s.hasNumParam = false := by
  simp [inNumB, and_assoc]

theorem inColorB_iff (s : State) :
    inColorB s = true ↔ s.hasCommand = true ∧ s.initialized = true ∧ s.hasNumParam = true := by
  simp [inColorB, and_assoc]

theorem numFieldPasses_iff (b : Byte) (s : State) :
    numFieldPasses b s = true ↔
      inNumB s = true ∧ s.paramPos = 3#8 ∧ (accumulateNum (hexVal b) s).numParam ≤ s.strip.pixelCount := by
  simp only [numFieldPasses, Bool.and_eq_true, beq_iff_eq, Bool.not_eq_true', ← Bool.not_eq_true, not_exceedsCount_iff,
    and_assoc, accumulateNum_strip]

/-- The late guard is made at the first colour digit only (R71). -/
theorem not_lateGuardFails_of_pos {s : State} (h : s.paramPos ≠ 0#8) : ¬LateGuardFails s := by
  rintro ⟨hdue, _⟩
  obtain ⟨_, _, hpos⟩ := (lateGuardDue_iff s).1 hdue
  exact h hpos

/-- The fourth digit in Phase B is COMPLETE_NUM_B (R97). -/
theorem takeDigit_num_last {b : Byte} {s : State} (hfield : inNumB s = true) (hpos : s.paramPos = 3#8) :
    takeDigit (hexVal b) s = exec (.completeNumB b) s := by
  obtain ⟨_, hphase, hnum⟩ := (inNumB_iff s).1 hfield
  rw [takeDigit_num _ hphase hnum, if_pos hpos, exec_completeNumB]

/-- The sixth colour digit is COMPLETE_COLOR_B (R103). -/
theorem takeDigit_color_last {b : Byte} {s : State} (hfield : inColorB s = true) (hpos : s.paramPos = 5#8) :
    takeDigit (hexVal b) s = exec (.completeColorB b) s := by
  obtain ⟨_, hphase, hcol⟩ := (inColorB_iff s).1 hfield
  have hguard : ¬LateGuardFails s := not_lateGuardFails_of_pos (by rw [hpos]; decide)
  rw [takeDigit_color _ hphase hcol hguard, if_pos hpos, exec_completeColorB]

/-- A colour digit before the last is DIGIT_B_COLOR (R96). -/
theorem takeDigit_color_before_last {b : Byte} {s : State} (hfield : inColorB s = true) (hpos : s.paramPos ≠ 5#8) :
    takeDigit (hexVal b) s = exec (.digitBColor b) s := by
  obtain ⟨_, hphase, hcol⟩ := (inColorB_iff s).1 hfield
  rw [exec_digitBColor]
  by_cases hguard : LateGuardFails s
  · rw [takeDigit_guard _ hphase hcol hguard, if_pos (Bool.and_eq_true_iff.2 ((lateGuardFails_iff s).1 hguard))]
  · rw [takeDigit_color _ hphase hcol hguard, if_neg hpos,
      if_neg (fun h => hguard ((lateGuardFails_iff s).2 (Bool.and_eq_true_iff.1 h)))]

/-- At the first colour digit, where the late guard is due, DIGIT_B_COLOR is PIXEL_GUARD_LATE (R100). -/
theorem exec_digitBColor_of_due {b : Byte} {s : State} (h : lateGuardDue s = true) :
    exec (.digitBColor b) s = exec (.pixelGuardLate b) s := by
  rw [exec_digitBColor, exec_pixelGuardLate, h, Bool.true_and]

/-- A digit taken in the control state of an effect row has the row's effect (R67). -/
theorem takeDigit_eq_effectRow {slot : StateSlot} {b : Byte} {s : State} (h : slotHolds slot b s = true) :
    takeDigit (hexVal b) s = exec (effectRow slot b) s := by
  cases slot with simp only [slotHolds, Bool.and_eq_true, decide_eq_true_eq, beq_iff_eq, numFieldPasses_iff] at h
  | lengthA =>
    obtain ⟨hfield, hpos⟩ := h
    obtain ⟨_, hphase⟩ := (inLengthA_iff s).1 hfield
    rw [takeDigit_length _ hphase, if_neg (by bv_omega)]
    rfl
  | lengthALast =>
    obtain ⟨hfield, hpos⟩ := h
    obtain ⟨_, hphase⟩ := (inLengthA_iff s).1 hfield
    rw [takeDigit_length _ hphase, if_pos hpos]
    rfl
  | numB =>
    obtain ⟨hfield, hpos⟩ := h
    obtain ⟨_, _, hnum⟩ := (inNumB_iff s).1 hfield
    exact takeDigit_num_before_last _ hnum (by bv_omega)
  | numBLast =>
    obtain ⟨hfield, hpos⟩ := h
    exact takeDigit_num_last hfield hpos
  | reinit =>
    obtain ⟨⟨hfield, hpos, hle⟩, hI⟩ := h
    exact (takeDigit_num_last hfield hpos).trans (exec_completeNumB_of_init hI hle)
  | color =>
    obtain ⟨⟨hfield, hpos, hle⟩, hcolor⟩ := h
    rw [Bool.or_eq_true, beq_iff_eq, beq_iff_eq] at hcolor
    exact (takeDigit_num_last hfield hpos).trans (exec_completeNumB_of_color hcolor hle)
  | raw =>
    obtain ⟨⟨hfield, hpos, hle⟩, hW⟩ := h
    exact (takeDigit_num_last hfield hpos).trans (exec_completeNumB_of_raw hW hle)
  | unknown =>
    obtain ⟨⟨hfield, hpos, hle⟩, hother⟩ := h
    simp only [Bool.not_eq_true', Bool.or_eq_false_iff, beq_eq_false_iff_ne] at hother
    obtain ⟨⟨⟨hI, hS⟩, hP⟩, hW⟩ := hother
    exact (takeDigit_num_last hfield hpos).trans (exec_completeNumB_of_unknown hI hS hP hW hle)
  | lateGuard =>
    obtain ⟨hfield, hdue⟩ := h
    obtain ⟨_, _, hpos⟩ := (lateGuardDue_iff s).1 hdue
    have hfirst : s.paramPos ≠ 5#8 := by rw [hpos]; decide
    exact (takeDigit_color_before_last hfield hfirst).trans (exec_digitBColor_of_due hdue)
  | colorB =>
    obtain ⟨hfield, hpos⟩ := h
    exact takeDigit_color_before_last hfield (by bv_omega)
  | colorBLast =>
    obtain ⟨hfield, hpos⟩ := h
    exact takeDigit_color_last hfield hpos
  | pixel =>
    obtain ⟨⟨hfield, hpos⟩, hP⟩ := h
    exact (takeDigit_color_last hfield hpos).trans (exec_completeColorB_of_pixel hP)
  | shade =>
    obtain ⟨⟨hfield, hpos⟩, hS⟩ := h
    exact (takeDigit_color_last hfield hpos).trans (exec_completeColorB_of_shade hS)

/-- Settles O8: the digit classes of mode `PARAM` take the byte's nibble, and so does the effect row. -/
theorem digitRunsItsEffectRow : Obligations.DigitRunsItsEffectRow :=
  fun _ _ s hI hslot => (exec_decodeByte_param_of_ne hI s).trans (takeDigit_eq_effectRow hslot)

/-- In a control form with a command pending one of the table's control states holds (R22, R67). -/
theorem exists_slotHolds {s : State} (b : Byte) (hform : ControlForm s) (hpending : s.hasCommand = true) :
    ∃ slot, slotHolds slot b s = true := by
  obtain ⟨_, hidle, _⟩ | ⟨_, hidle, _⟩ | ⟨k, hphase, _, _, _, hpos, hk, _⟩
    | ⟨c, k, hphase, _, _, _, hnum, hpos, hk, _⟩ | ⟨c, k, hphase, _, _, _, hcol, hpos, hk, _⟩ := hform
  · exact absurd hpending (by simp [hidle])
  · exact absurd hpending (by simp [hidle])
  · have hfield : inLengthA s = true := (inLengthA_iff s).2 ⟨hpending, hphase⟩
    by_cases hlast : s.paramPos = 3#8
    · exact ⟨.lengthALast, by simp [slotHolds, hfield, hlast]⟩
    · exact ⟨.lengthA, by rw [slotHolds, hfield, Bool.true_and, decide_eq_true_iff]; bv_omega⟩
  · have hfield : inNumB s = true := (inNumB_iff s).2 ⟨hpending, hphase, hnum⟩
    by_cases hlast : s.paramPos = 3#8
    · exact ⟨.numBLast, by simp [slotHolds, hfield, hlast]⟩
    · exact ⟨.numB, by rw [slotHolds, hfield, Bool.true_and, decide_eq_true_iff]; bv_omega⟩
  · have hfield : inColorB s = true := (inColorB_iff s).2 ⟨hpending, hphase, hcol⟩
    by_cases hlast : s.paramPos = 5#8
    · exact ⟨.colorBLast, by simp [slotHolds, hfield, hlast]⟩
    · exact ⟨.colorB, by rw [slotHolds, hfield, Bool.true_and, decide_eq_true_iff]; bv_omega⟩

/-- Settles O9: the form of the invariant names the control state, and a digit there runs its row. -/
theorem everyDigitHasAnEffectRow : Obligations.EveryDigitHasAnEffectRow := by
  unfold Obligations.EveryDigitHasAnEffectRow
  rintro b s ⟨hform, _⟩ hpending hI
  obtain ⟨slot, hslot⟩ := exists_slotHolds b hform hpending
  exact ⟨slot, hslot, digitRunsItsEffectRow slot b s hI hslot⟩

/-! ### Digits that complete no field -/

/-- Every digit class takes some nibble (R58). -/
theorem exec_digitClass {i : Instr} (s : State)
    (h : (∃ n, i = .digitDec n ∨ i = .digitUc n ∨ i = .digitLc n) ∨ ∃ b, i = .digitNonhex b) :
    ∃ n, exec i s = takeDigit n s := by
  obtain ⟨n, rfl | rfl | rfl⟩ | ⟨b, rfl⟩ := h
  · exact ⟨n, exec_digitDec n s⟩
  · exact ⟨n, exec_digitUc n s⟩
  · exact ⟨n, exec_digitLc n s⟩
  · exact ⟨0#4, exec_digitNonhex b s⟩

/-- Settles O23: the effect rows accumulate by definition, and a digit class accumulates since the cursor is not at 3. -/
theorem numericDigitAdvances : Obligations.NumericDigitAdvances := by
  unfold Obligations.NumericDigitAdvances
  rintro i s (⟨b, rfl | rfl⟩ | ⟨hclass, k, hk, hfield⟩)
  · exact ⟨_, rfl⟩
  · exact ⟨_, rfl⟩
  · obtain ⟨n, hexec⟩ := exec_digitClass s hclass
    have hregisters : s.hasNumParam = false ∧ s.paramPos.toNat = k := by
      obtain ⟨_, _, _, hnum, hpos, _⟩ | ⟨c, _, _, _, _, hnum, hpos, _⟩ := hfield
      · exact ⟨hnum, hpos⟩
      · exact ⟨hnum, hpos⟩
    obtain ⟨hnum, hpos⟩ := hregisters
    exact ⟨nextNum s.paramPos s.numParam n, hexec.trans (takeDigit_num_before_last n hnum (by bv_omega))⟩

/-- Settles O24: where the late guard does not fail, a digit that does not find the cursor at 5 accumulates. -/
theorem colorDigitAdvances : Obligations.ColorDigitAdvances := by
  unfold Obligations.ColorDigitAdvances
  rintro i s hpasses hi
  have hguard : ¬LateGuardFails s := fun ⟨hdue, heq⟩ => hpasses hdue heq
  obtain ⟨b, rfl⟩ | ⟨hclass, k, hk, c, hphase, _, _, _, hcol, hpos, _⟩ := hi
  · refine ⟨nextColor s.paramPos s.colorParam (hexVal b), ?_⟩
    rw [exec_digitBColor, if_neg (fun h => hguard ((lateGuardFails_iff s).2 (Bool.and_eq_true_iff.1 h)))]
    rfl
  · obtain ⟨n, hexec⟩ := exec_digitClass s hclass
    refine ⟨nextColor s.paramPos s.colorParam n, ?_⟩
    rw [hexec, takeDigit_color n hphase hcol hguard, if_neg (by bv_omega)]
    rfl

end Sys2Proof.Proofs
end

section
/-! What a step can do: one relation for every answer of a step, from which the invariants are proved. -/

namespace Sys2Proof.Proofs

open Sys2Proof.Machine

/-! ### The effects -/

/-- A step that emits nothing: it moves the parser and leaves the environment. -/
inductive ParserMove (s : State) : State → Prop
  /-- Nothing happens: no byte waits, or the byte is ignored (R83). -/
  | ignore : ParserMove s s
  /-- The command is aborted, or the byte is not recognised (R72, R94). -/
  | reset : ParserMove s (parserReset s)
  /-- A command that takes parameters is accepted (R81, R89, R91, R93, R95). -/
  | accept (c : Byte) (hidle : s.hasCommand = false)
      (hc : s.initialized = false ∧ c = byteI
        ∨ s.initialized = true ∧ (c = byteI ∨ c = byteP ∨ c = byteS ∨ c = byteW)) :
      ParserMove s (acceptCommand c s)
  /-- A digit before the last of a numeric field (R84, R96). -/
  | numDigit (n : Nibble) (hpending : s.hasCommand = true) (hfield : s.initialized = false ∨ s.hasNumParam = false)
      (hpos : s.paramPos ≠ 3#8) : ParserMove s (accumulateNum n s)
  /-- The last digit of a numeric field in Phase B, on to the colour field (R99). -/
  | enterColor (n : Nibble) (hpending : s.hasCommand = true) (hphase : s.initialized = true)
      (hfield : s.hasNumParam = false) (hle : (accumulateNum n s).numParam ≤ s.strip.pixelCount)
      (hcommand : s.command = byteS ∨ s.command = byteP
        ∧ (s.params.pixelGuardPoint = .atParamComplete → (accumulateNum n s).numParam ≠ s.strip.pixelCount)) :
      ParserMove s { accumulateNum n s with hasNumParam := true, paramPos := 0x00#8 }
  /-- A digit before the last of a colour field, past the late guard (R96, R100). -/
  | colorDigit (n : Nibble) (hpending : s.hasCommand = true) (hphase : s.initialized = true)
      (hfield : s.hasNumParam = true) (hguard : ¬LateGuardFails s) (hpos : s.paramPos ≠ 5#8) :
      ParserMove s (accumulateColor n s)

/-- The last digit of a colour field is due (R22). -/
def AtLastColorDigit (s : State) : Prop :=
  s.hasCommand = true ∧ s.initialized = true ∧ s.hasNumParam = true ∧ s.paramPos = 5#8

/-- The colour `c` is the one that some last digit completes (R103). -/
def CompletesColor (c : U32) (s : State) : Prop := AtLastColorDigit s ∧ ∃ n, c = nextColor s.paramPos s.colorParam n

/-- What a step does that answers a next state, with the events it emits. -/
inductive Effect (s : State) : List Event → State → Prop
  /-- Nothing is emitted. -/
  | quiet {t : State} (hmove : ParserMove s t) : Effect s [] t
  /-- A report that ends its command: VERSION, re-init, the stub, or an error of Phase B (R82, R97 to R102). -/
  | report (d : Diag) : Effect s [.diag d] (raiseDiag d s)
  /-- The completed INIT of Phase A (R85). -/
  | initCompletes (n : Nibble) (hpending : s.hasCommand = true) (hphase : s.initialized = false) :
      Effect s
        [.setLength (accumulateNum n s).numParam,
          .diag (initReport (stripResize s.params (accumulateNum n s).numParam))]
        (finishInitA (accumulateNum n s))
  /-- The completed PIXEL (R104). -/
  | pixel (c : U32) (hcolor : CompletesColor c s) (hlt : s.numParam < s.strip.pixelCount) :
      Effect s [.setPixel s.numParam c] (parserReset (stripSetPixel s.numParam c s))
  /-- The completed SHADE (R105), and LATCH_FRAME (R92), which fills no pixel. -/
  | fills (c : U32) (k : Nat) (hphase : s.initialized = true) (hk : k ≤ s.strip.pixelCount.toNat)
      (hcolor : k = 0 ∨ CompletesColor c s) :
      Effect s (fillEvents c k ++ [latchEvent s]) (parserReset (latch (fillPixels c k s)))

/-- A colour field whose last digit has no continuation that the model gives (U6, U9; log 10, log 11). -/
def ColorBlocked (s : State) : Prop :=
  AtLastColorDigit s ∧ ¬(s.command = byteP ∧ s.numParam < s.strip.pixelCount)
    ∧ ¬(s.command = byteS ∧ s.numParam ≤ s.strip.pixelCount)

/-- What a step can answer. -/
inductive Answers (s : State) : Result → Prop
  | next {es : List Event} {t : State} (heffect : Effect s es t) : Answers s (.next t)
  | refused {r : Refusal} (hblocked : ColorBlocked s) : Answers s (.refused r)

/-! ### Every answer of a step is one of these -/

theorem answers_topA {b : Byte} {s : State} (hidle : s.hasCommand = false) (hphase : s.initialized = false) :
    Answers s (topA b s) := by
  unfold topA
  split_ifs
  · exact .next (.quiet (.accept byteI hidle (.inl ⟨hphase, rfl⟩)))
  · exact .next (.report _)
  · exact .next (.quiet .ignore)

theorem answers_topB {b : Byte} {s : State} (hidle : s.hasCommand = false) (hphase : s.initialized = true) :
    Answers s (topB b s) := by
  unfold topB
  split_ifs
  · exact .next (.quiet (.accept byteI hidle (.inr ⟨hphase, by decide⟩)))
  · exact .next (.report _)
  · exact .next (.quiet (.accept byteP hidle (.inr ⟨hphase, by decide⟩)))
  · exact .next (.fills 0#32 0 hphase (Nat.zero_le _) (.inl rfl))
  · exact .next (.quiet (.accept byteS hidle (.inr ⟨hphase, by decide⟩)))
  · exact .next (.quiet (.accept byteW hidle (.inr ⟨hphase, by decide⟩)))
  · exact .next (.quiet .reset)

/-- The reset drops what a colour digit did to the registers, after a fill and a latch too (R74). -/
theorem parserReset_latch_fillPixels_accumulateColor (c : U32) (k : Nat) (n : Nibble) (s : State) :
    parserReset (latch (fillPixels c k (accumulateColor n s))) = parserReset (latch (fillPixels c k s)) := by
  have hfill : fillPixels c k (accumulateColor n s) = accumulateColor n (fillPixels c k s) := by
    induction k with
    | zero => rfl
    | succ k ih => rw [fillPixels, ih]; rfl
  rw [hfill, latch_eq, latch_eq]
  rfl

/-- The completion of a numeric field in Phase B (R97): a report, or the way on to the colour field. -/
theorem answers_finishNumB {s : State} (n : Nibble) (hpending : s.hasCommand = true) (hphase : s.initialized = true)
    (hfield : s.hasNumParam = false) : Answers s (.next (finishNumB (accumulateNum n s))) := by
  obtain ⟨d, hreport⟩ | ⟨hcolor, hle, hcommand⟩ := finishNumB_cases (accumulateNum n s)
  · rw [hreport, raiseDiag_accumulateNum]
    exact .next (.report d)
  · rw [hcolor]
    exact .next (.quiet (.enterColor n hpending hphase hfield hle hcommand))

/-- The completion of a colour field (R103): the pixel, the fill, or a stop by name. -/
theorem answers_finishColorB {s : State} (n : Nibble) (hlast : AtLastColorDigit s) :
    Answers s (finishColorB (accumulateColor n s)) := by
  have hcolor : CompletesColor (accumulateColor n s).colorParam s := ⟨hlast, n, rfl⟩
  by_cases hP : s.command = byteP
  · rw [finishColorB_of_pixel (s := accumulateColor n s) hP]
    by_cases hlt : s.numParam < s.strip.pixelCount
    · rw [finishPixel_of_lt (s := accumulateColor n s) hlt]
      exact .next (.pixel _ hcolor hlt)
    · rw [finishPixel_of_le (s := accumulateColor n s) (BitVec.not_lt.1 hlt)]
      refine .refused ⟨hlast, fun h => hlt h.2, fun h => ?_⟩
      exact absurd (hP.symm.trans h.1) (by decide)
  · by_cases hS : s.command = byteS
    · rw [finishColorB_of_shade (s := accumulateColor n s) hS]
      by_cases hle : s.numParam ≤ s.strip.pixelCount
      · obtain ⟨_, hphase, _⟩ := hlast
        rw [finishShade_of_le (s := accumulateColor n s) hle, parserReset_latch_fillPixels_accumulateColor]
        exact .next (.fills _ _ hphase (BitVec.le_def.1 hle) (.inr hcolor))
      · rw [finishShade_of_lt (s := accumulateColor n s) (BitVec.not_le.1 hle)]
        exact .refused ⟨hlast, fun h => hP h.1, fun h => hle h.2⟩
    · rw [finishColorB_of_other (s := accumulateColor n s) hP hS]
      exact .refused ⟨hlast, fun h => hP h.1, fun h => hS h.1⟩

/-- Part 3 of the feed step (R71), field by field. -/
theorem answers_takeDigit {s : State} (n : Nibble) (hpending : s.hasCommand = true) : Answers s (takeDigit n s) := by
  cases hphase : s.initialized with
  | false =>
    rw [takeDigit_length n hphase]
    split_ifs with hpos
    · exact .next (.initCompletes n hpending hphase)
    · exact .next (.quiet (.numDigit n hpending (.inl hphase) hpos))
  | true =>
    cases hfield : s.hasNumParam with
    | false =>
      rw [takeDigit_num n hphase hfield]
      split_ifs with hpos
      · exact answers_finishNumB n hpending hphase hfield
      · exact .next (.quiet (.numDigit n hpending (.inr hfield) hpos))
    | true =>
      by_cases hguard : LateGuardFails s
      · rw [takeDigit_guard n hphase hfield hguard]
        exact .next (.report _)
      · rw [takeDigit_color n hphase hfield hguard]
        split_ifs with hpos
        · exact answers_finishColorB n ⟨hpending, hphase, hfield, hpos⟩
        · exact .next (.quiet (.colorDigit n hpending hphase hfield hguard hpos))

/-- The three parts of the feed step (R71). -/
theorem answers_feedByte (b : Byte) (s : State) : Answers s (feedByte b s) := by
  cases hpending : s.hasCommand with
  | false =>
    rw [feedByte_topLevel hpending]
    split_ifs with hphase
    · exact answers_topA hpending hphase
    · exact answers_topB hpending (Bool.eq_true_of_not_eq_false hphase)
  | true =>
    by_cases hI : b = byteI
    · rw [hI, feedByte_abort hpending]
      exact .next (.quiet .reset)
    · rw [feedByte_digit hpending hI]
      exact answers_takeDigit _ hpending

/-- The state in which a step executes: the byte, if one waits, is taken, and its clock value set (log 8). -/
def afterFetch (s : State) : State := fed (s.input.take 1) s.input.tail s

/-- Without a byte nothing is fetched. -/
theorem afterFetch_of_input_nil {s : State} (h : s.input = []) : afterFetch s = s := by
  obtain ⟨⟩ := s
  obtain rfl := h
  rfl

/-- Every answer of a step, with or without a byte. -/
theorem answers_step (s : State) : Answers (afterFetch s) (step s) := by
  cases hinput : s.input with
  | nil =>
    rw [afterFetch_of_input_nil hinput, step_of_input_nil hinput]
    exact .next (.quiet .ignore)
  | cons a rest =>
    rw [step_of_input_cons hinput, afterFetch, hinput]
    change Answers (fed [a] rest s) (exec (decodeByte (decodeMode (fed [a] rest s)) a.byte) (fed [a] rest s))
    rw [exec_decodeByte_eq_feedByte]
    exact answers_feedByte _ _

/-- What a step did that answered a next state. -/
theorem effect_of_step {s t : State} (h : step s = .next t) : ∃ es, Effect (afterFetch s) es t := by
  have hanswers := answers_step s
  rw [h] at hanswers
  obtain heffect | _ := hanswers
  exact ⟨_, heffect⟩

end Sys2Proof.Proofs
end

section
/-! The invariants and whole-machine rules (R22 to R25, R27, R37, R76, R78, R87, R106, R122, R134, R147), each from the effects
of a step. -/

namespace Sys2Proof.Proofs

open Sys2Proof.Machine

/-! ### What each effect leaves unchanged -/

/-- Two states with the same phase and the same environment. -/
structure SameEnvironment (s t : State) : Prop where
  initialized : t.initialized = s.initialized
  latchTime : t.latchTime = s.latchTime
  strip : t.strip = s.strip
  now : t.now = s.now
  input : t.input = s.input
  events : t.events = s.events
  params : t.params = s.params

/-- A move of the parser leaves the phase and the environment as they are. -/
theorem ParserMove.sameEnvironment {s t : State} (h : ParserMove s t) : SameEnvironment s t := by
  cases h <;> exact ⟨rfl, rfl, rfl, rfl, rfl, rfl, rfl⟩

/-- Every effect appends its events, and keeps the clock, the queue and the parameters (R27). -/
theorem Effect.frame {s t : State} {es : List Event} (h : Effect s es t) :
    t.events = s.events ++ es ∧ t.now = s.now ∧ t.input = s.input ∧ t.params = s.params := by
  cases h with
  | quiet hmove =>
    have henv := hmove.sameEnvironment
    exact ⟨henv.events.trans (List.append_nil _).symm, henv.now, henv.input, henv.params⟩
  | report d => exact ⟨rfl, rfl, rfl, rfl⟩
  | initCompletes n => rw [finishInitA_eq]; exact ⟨rfl, rfl, rfl, rfl⟩
  | pixel c => exact ⟨rfl, rfl, rfl, rfl⟩
  | fills c k => rw [latch_fillPixels]; exact ⟨List.append_assoc .., rfl, rfl, rfl⟩

/-- A step appends the events of its effect. -/
theorem events_of_step {s t : State} {es : List Event} (h : Effect (afterFetch s) es t) : t.events = s.events ++ es := by
  obtain ⟨hevents, _⟩ := h.frame
  exact hevents

/-- Settles O49: no effect writes the parameters, the queue or the clock, so these are as the fetch left them. -/
theorem stepKeepsParametersAndTakesOneByte : Obligations.StepKeepsParametersAndTakesOneByte := by
  unfold Obligations.StepKeepsParametersAndTakesOneByte
  intro s t hstep
  obtain ⟨es, heffect⟩ := effect_of_step hstep
  obtain ⟨_, hnow, hinput, hparams⟩ := heffect.frame
  exact ⟨hparams, hinput, hnow⟩

/-! ### The pixel memories -/

/-- The canonical form is kept: the memory operations keep it, and a transmit shows a buffer that has it. -/
theorem Effect.memoryForm {s t : State} {es : List Event} (h : Effect s es t) (hform : MemoryForm s) : MemoryForm t := by
  obtain ⟨hpixels, hshown⟩ := hform
  cases h with
  | quiet hmove =>
    rw [MemoryForm, hmove.sameEnvironment.strip]
    exact ⟨hpixels, hshown⟩
  | report d => exact ⟨hpixels, hshown⟩
  | initCompletes n =>
    rw [finishInitA_eq]
    exact ⟨Memory.ofEntries_wf _, hshown⟩
  | pixel c => exact ⟨Memory.write_wf c hpixels s.numParam.isLt, hshown⟩
  | fills c k =>
    have hfilled : (filledPixels c k s).wf := fillPixels_wf c k s hpixels
    rw [latch_fillPixels]
    refine ⟨hfilled, ?_⟩
    change Memory.wf (if latchAllowed s then filledPixels c k s else s.strip.shown)
    split_ifs
    · exact hfilled
    · exact hshown

/-- Settles O42: the fetch leaves the memories, and every effect keeps their form. -/
theorem stepKeepsMemoryForm : Obligations.StepKeepsMemoryForm := by
  unfold Obligations.StepKeepsMemoryForm
  intro s t hform hstep
  obtain ⟨es, heffect⟩ := effect_of_step hstep
  exact heffect.memoryForm hform

/-! ### The phase -/

/-- The phase changes in one way only: an INIT that completes in Phase A with a nonzero count (R12, R147). -/
theorem Effect.phase {s t : State} {es : List Event} (h : Effect s es t) :
    t.initialized = s.initialized
      ∨ t.initialized = true ∧ s.hasCommand = true ∧ t.strip.pixelCount ≠ 0#16
        ∧ ∃ v, es = [.setLength v, .diag (.initOk t.strip.pixelCount)] := by
  cases h with
  | quiet hmove => exact .inl hmove.sameEnvironment.initialized
  | report d => exact .inl rfl
  | initCompletes n hpending =>
    rw [finishInitA_eq]
    by_cases hcount : stripResize s.params (accumulateNum n s).numParam = 0#16
    · exact .inl (if_pos hcount)
    · refine .inr ⟨if_neg hcount, hpending, hcount, (accumulateNum n s).numParam, ?_⟩
      rw [initReport, if_neg hcount]
      rfl
  | pixel c => exact .inl rfl
  | fills c k => rw [latch_fillPixels]; exact .inl rfl

/-- Settles O43: an effect that leaves the phase clears nothing and sets nothing; the one that changes it is the INIT. -/
theorem initializedSetOnlyByInit : Obligations.InitializedSetOnlyByInit := by
  unfold Obligations.InitializedSetOnlyByInit
  intro s t hstep
  obtain ⟨es, heffect⟩ := effect_of_step hstep
  obtain hsame | ⟨hset, hpending, hcount, v, rfl⟩ := heffect.phase
  · have hphase : t.initialized = s.initialized := hsame
    exact ⟨hphase.trans, fun hA hB => absurd (hphase.symm.trans hB) (by simp [hA])⟩
  · exact ⟨fun _ => hset, fun _ _ => ⟨hpending, hcount, v, events_of_step heffect⟩⟩

/-! ### The latch -/

theorem showFrame_not_mem_fillEvents (c : U32) (k : Nat) : .showFrame ∉ fillEvents c k := by
  simp [fillEvents]

/-- A step transmits, by a latch that the rate limiter lets pass, or leaves `latchTime` and the frame shown (R121, R122). -/
theorem Effect.transmit {s t : State} {es : List Event} (h : Effect s es t) :
    (.showFrame ∉ es ∧ t.latchTime = s.latchTime ∧ t.strip.shown = s.strip.shown)
      ∨ (.showFrame ∈ es ∧ s.initialized = true ∧ latchAllowed s = true ∧ t.latchTime = s.now
        ∧ t.strip.shown = t.strip.pixels) := by
  cases h with
  | quiet hmove =>
    have henv := hmove.sameEnvironment
    exact .inl ⟨List.not_mem_nil, henv.latchTime, by rw [henv.strip]⟩
  | report d => exact .inl ⟨by simp, rfl, rfl⟩
  | initCompletes n => rw [finishInitA_eq]; exact .inl ⟨by simp, rfl, rfl⟩
  | pixel c => exact .inl ⟨by simp, rfl, rfl⟩
  | fills c k hphase =>
    rw [latch_fillPixels, latchEvent]
    by_cases hallowed : latchAllowed s = true
    · exact .inr ⟨by simp [hallowed], hphase, hallowed, if_pos hallowed, if_pos hallowed⟩
    · exact .inl ⟨by simp [hallowed, showFrame_not_mem_fillEvents], if_neg hallowed, if_neg hallowed⟩

/-- Settles O44: the two cases of `Effect.transmit`, with the clock value that the fetch set. -/
theorem latchTimeWrittenOnlyByTransmit : Obligations.LatchTimeWrittenOnlyByTransmit := by
  unfold Obligations.LatchTimeWrittenOnlyByTransmit
  intro s t hstep
  obtain ⟨es, heffect⟩ := effect_of_step hstep
  obtain ⟨hevents, hnow, _⟩ := heffect.frame
  refine ⟨es, hevents, ?_⟩
  obtain ⟨hno, hkept⟩ | ⟨hshow, _, hallowed, hlatchTime, hshown⟩ := heffect.transmit
  · exact ⟨fun hshow => absurd hshow hno, fun _ => hkept⟩
  · rw [hnow]
    exact ⟨fun _ => ⟨hlatchTime, (latchAllowed_iff_toNat _).1 hallowed, hshown⟩, fun hno => absurd hshow hno⟩

/-! ### The number of events -/

theorem diagsOf_append (es fs : List Event) : diagsOf (es ++ fs) = diagsOf es ++ diagsOf fs := by
  induction es with
  | nil => rfl
  | cons e es ih => cases e <;> simp [diagsOf, ih]

theorem diagsOf_eq_nil {es : List Event} (h : ∀ d, .diag d ∉ es) : diagsOf es = [] := by
  induction es with
  | nil => rfl
  | cons e es ih =>
    have hes : diagsOf es = [] := ih fun d hd => h d (List.mem_cons_of_mem e hd)
    cases e with
    | diag d => exact absurd List.mem_cons_self (h d)
    | setLength | setPixel | showFrame => exact hes

theorem diagsOf_fillEvents (c : U32) (k : Nat) : diagsOf (fillEvents c k) = [] :=
  diagsOf_eq_nil fun d => by simp [fillEvents]

theorem diagsOf_singleton_length_le (e : Event) : (diagsOf [e]).length ≤ 1 := by
  cases e <;> simp [diagsOf]

/-- An effect emits at most one report (R134). -/
theorem Effect.diags_length_le {s t : State} {es : List Event} (h : Effect s es t) : (diagsOf es).length ≤ 1 := by
  cases h with
  | quiet => exact Nat.zero_le 1
  | report d => exact diagsOf_singleton_length_le _
  | initCompletes n => exact le_rfl
  | pixel c => exact diagsOf_singleton_length_le _
  | fills c k =>
    rw [diagsOf_append, diagsOf_fillEvents, List.nil_append]
    exact diagsOf_singleton_length_le _

/-- An effect emits at most one event for each pixel of the strip, and the latch's (R76). -/
theorem Effect.length_le {s t : State} {es : List Event} (h : Effect s es t) : es.length ≤ 0xFFFF + 1 := by
  cases h with
  | quiet | report | initCompletes | pixel => simp
  | fills c k _ hk =>
    have hcount := s.strip.pixelCount.isLt
    rw [List.length_append, fillEvents, List.length_map, List.length_range, List.length_singleton]
    omega

/-- Settles O45: the bounds of the effect. -/
theorem stepEventBounds : Obligations.StepEventBounds := by
  unfold Obligations.StepEventBounds
  intro s t hstep
  obtain ⟨es, heffect⟩ := effect_of_step hstep
  exact ⟨es, events_of_step heffect, heffect.length_le, heffect.diags_length_le⟩

/-- Settles O58: the text is read off the reports in their order, and a step appends the lines of the reports that its effect
appends, at most one. -/
theorem statusTextFollowsReports : Obligations.StatusTextFollowsReports := by
  unfold Obligations.StatusTextFollowsReports
  intro s t hstep
  obtain ⟨es, heffect⟩ := effect_of_step hstep
  have hdiags : diagsOf t.events = diagsOf s.events ++ diagsOf es := by
    rw [events_of_step heffect, diagsOf_append]
  refine ⟨diagsOf es, ?_, by rw [statusText, hdiags, List.flatMap_append, statusText], hdiags⟩
  obtain hzero | hone := Nat.le_one_iff_eq_zero_or_eq_one.1 heffect.diags_length_le
  · exact .inl (List.eq_nil_of_length_eq_zero hzero)
  · exact .inr (List.length_eq_one_iff.1 hone)

/-! ### The requests to the strip -/

/-- The pixels a fill writes lie below its count and take its colour (R105). -/
theorem setPixel_mem_fillEvents {i : U16} {c c' : U32} {k : Nat} (h : .setPixel i c' ∈ fillEvents c k) :
    i.toNat < k ∧ c' = c := by
  obtain ⟨j, hj, heq⟩ := List.mem_map.1 h
  obtain ⟨rfl, rfl⟩ := Event.setPixel.inj heq
  rw [BitVec.toNat_ofNat]
  exact ⟨(Nat.mod_le _ _).trans_lt (List.mem_range.1 hj), rfl⟩

theorem latchEvent_ne_setPixel (s : State) (i : U16) (c : U32) : .setPixel i c ≠ latchEvent s := by
  rw [latchEvent]
  split_ifs <;> exact Event.noConfusion

/-- Every SetPixel has an index below the count, and comes with a completed colour in Phase B (R37, R87). -/
theorem Effect.setPixel_mem {s t : State} {es : List Event} (h : Effect s es t) {i : U16} {c : U32}
    (hmem : .setPixel i c ∈ es) : i.toNat < s.strip.pixelCount.toNat ∧ CompletesColor c s := by
  cases h with
  | quiet | report | initCompletes => simp at hmem
  | pixel c' hcolor hlt =>
    obtain ⟨rfl, rfl⟩ := Event.setPixel.inj (List.mem_singleton.1 hmem)
    exact ⟨BitVec.lt_def.1 hlt, hcolor⟩
  | fills c' k _ hk hcolor =>
    have hfill : .setPixel i c ∈ fillEvents c' k :=
      (List.mem_append.1 hmem).resolve_right fun hlatch => latchEvent_ne_setPixel s i c (List.mem_singleton.1 hlatch)
    obtain ⟨hlt, rfl⟩ := setPixel_mem_fillEvents hfill
    exact ⟨hlt.trans_le hk, hcolor.resolve_left (Nat.ne_of_gt (Nat.zero_lt_of_lt hlt))⟩

/-- Settles O47: in Phase A no effect is a transmit or has a completed colour. -/
theorem phaseAOnlySetsLength : Obligations.PhaseAOnlySetsLength := by
  unfold Obligations.PhaseAOnlySetsLength
  intro s t hA hstep
  obtain ⟨es, heffect⟩ := effect_of_step hstep
  have hnotB : ¬(afterFetch s).initialized = true := Bool.eq_false_iff.1 hA
  have hpixel : ∀ i c, .setPixel i c ∉ es := by
    intro i c hmem
    obtain ⟨_, ⟨_, hB, _⟩, _⟩ := heffect.setPixel_mem hmem
    exact hnotB hB
  obtain ⟨hno, hlatchTime, hshown⟩ | ⟨_, hB, _⟩ := heffect.transmit
  · exact ⟨hlatchTime, hshown, es, events_of_step heffect, hno, hpixel⟩
  · exact absurd hB hnotB

/-- Only the INIT of Phase A sizes the strip (R106). -/
theorem Effect.not_resized {s t : State} {es : List Event} (h : Effect s es t) (hB : s.initialized = true) :
    t.strip.pixelCount = s.strip.pixelCount ∧ ∀ v, .setLength v ∉ es := by
  cases h with
  | quiet hmove => exact ⟨by rw [hmove.sameEnvironment.strip], fun v => List.not_mem_nil⟩
  | report d => exact ⟨rfl, fun v => by simp⟩
  | initCompletes n _ hA => exact absurd hB (Bool.eq_false_iff.1 hA)
  | pixel c => exact ⟨rfl, fun v => by simp⟩
  | fills c k =>
    rw [latch_fillPixels, latchEvent]
    refine ⟨rfl, fun v => ?_⟩
    split_ifs <;> simp [fillEvents]

/-- Settles O48: no effect of Phase B sizes the strip. -/
theorem phaseBNeverResizes : Obligations.PhaseBNeverResizes := by
  unfold Obligations.PhaseBNeverResizes
  intro s t hB hstep
  obtain ⟨es, heffect⟩ := effect_of_step hstep
  obtain ⟨hcount, hno⟩ := heffect.not_resized hB
  exact ⟨hcount, es, events_of_step heffect, hno⟩

/-! ### The bytes of a colour -/

/-- A merged digit stands in the low byte (R114). -/
theorem mergedDigit_lt {w : Nat} (hw : 8 ≤ w) (p : BitVec 8) (n : Nibble) : (mergedDigit w p n).toNat < 2 ^ 8 := by
  have hn := n.isLt
  cases hp : p.getLsbD 0 with
  | false => rw [mergedDigit_even hw hp]; omega
  | true => rw [mergedDigit_odd hw hp]; omega

/-- Merging a digit needs no bits beyond the low byte. -/
theorem or_mergedDigit_lt {m : Nat} {v : U32} (hm : 8 ≤ m) (hv : v.toNat < 2 ^ m) (p : BitVec 8) (n : Nibble) :
    (v ||| mergedDigit 32 p n).toNat < 2 ^ m := by
  have hdigit : (mergedDigit 32 p n).toNat < 2 ^ m :=
    (mergedDigit_lt (by decide) p n).trans_le (Nat.pow_le_pow_right (by decide) hm)
  rw [BitVec.toNat_or]
  exact Nat.or_lt_two_pow hv hdigit

/-- A colour digit keeps the bytes of the colour not yet reached zero (R25). -/
theorem nextColor_lt {k : Nat} {p : BitVec 8} {v : U32} (hp : p.toNat = k) (hk : k ≤ 5)
    (hv : v.toNat < 256 ^ ((k + 1) / 2)) (n : Nibble) : (nextColor p v n).toNat < 256 ^ ((k + 1 + 1) / 2) := by
  obtain rfl : p = BitVec.ofNat 8 k := eq_ofNat_of_toNat_eq hp
  interval_cases k
  · rw [nextColor_first]
    exact or_mergedDigit_lt (m := 8) (by decide) (by decide) _ n
  · rw [nextColor_merge (by decide)]
    exact or_mergedDigit_lt (m := 8) (by decide) hv _ n
  · rw [nextColor_shift (by decide)]
    have hroom : 2 ^ 8 * v.toNat < 2 ^ 16 := by omega
    exact or_mergedDigit_lt (m := 16) (by decide) (by rw [toNat_shiftLeft_eight (by omega)]; exact hroom) _ n
  · rw [nextColor_merge (by decide)]
    exact or_mergedDigit_lt (m := 16) (by decide) hv _ n
  · rw [nextColor_shift (by decide)]
    have hroom : 2 ^ 8 * v.toNat < 2 ^ 24 := by omega
    exact or_mergedDigit_lt (m := 24) (by decide) (by rw [toNat_shiftLeft_eight (by omega)]; exact hroom) _ n
  · rw [nextColor_merge (by decide)]
    exact or_mergedDigit_lt (m := 24) (by decide) hv _ n

/-! ### The control forms -/

/-- With a command pending a control form is one of the three fields (R22). -/
theorem controlForm_field_of_pending {s : State} (h : ControlForm s) (hpending : s.hasCommand = true) :
    (∃ k, LengthA k s) ∨ (∃ c k, NumB c k s) ∨ (∃ c k, ColorB c k s) := by
  obtain ⟨_, hidle, _⟩ | ⟨_, hidle, _⟩ | hfield := h
  · exact absurd hpending (by simp [hidle])
  · exact absurd hpending (by simp [hidle])
  · exact hfield

/-- With a colour field pending a control form is the colour field (R22). -/
theorem controlForm_colorB_of_pending {s : State} (h : ControlForm s) (hpending : s.hasCommand = true)
    (hphase : s.initialized = true) (hcol : s.hasNumParam = true) : ∃ c k, ColorB c k s := by
  obtain ⟨k, hA, _⟩ | ⟨c, k, _, _, _, _, hnum, _⟩ | hcolor := controlForm_field_of_pending h hpending
  · exact absurd hphase (by simp [hA])
  · exact absurd hcol (by simp [hnum])
  · exact hcolor

/-- A neutral parser is idle in one of the two phases (R22). -/
theorem controlForm_of_neutral {s : State} (h : Neutral s) : ControlForm s := by
  cases hphase : s.initialized with
  | false => exact .inl ⟨hphase, h⟩
  | true => exact .inr (.inl ⟨hphase, h⟩)

/-- Settles O39: both resets leave a neutral parser, and the memories at reset are empty. -/
theorem invHoldsAtReset : Obligations.InvHoldsAtReset := by
  unfold Obligations.InvHoldsAtReset
  refine ⟨⟨.inl reset_idleA, reset_pixels_wf, Memory.nil_wf⟩, fun s hmemory => ⟨.inl (powerOnReset_idleA s), hmemory⟩⟩

/-- Settles O46: the index bound is the model's own test; the colour was completed in a colour field, whose six digits reach
24 bits. -/
theorem pixelRequestsValid : Obligations.PixelRequestsValid := by
  unfold Obligations.PixelRequestsValid
  intro s t hstep
  obtain ⟨es, heffect⟩ := effect_of_step hstep
  refine ⟨es, events_of_step heffect, fun i c hmem => ?_⟩
  obtain ⟨hindex, ⟨hpending, hphase, hcol, hlast⟩, n, rfl⟩ := heffect.setPixel_mem hmem
  refine ⟨hindex, fun hinv => ?_⟩
  obtain ⟨hform, _⟩ : Inv (afterFetch s) := hinv
  obtain ⟨_, k, _, _, _, _, _, hpos, hk, _, _, hcolor⟩ := controlForm_colorB_of_pending hform hpending hphase hcol
  have hk5 : k = 5 := by rw [← hpos, hlast]; rfl
  subst hk5
  exact nextColor_lt hpos hk hcolor n

/-- A command accepted at top level opens its first field (R81, R89, R91, R93, R95). -/
theorem controlForm_acceptCommand {s : State} {c : Byte} (h : ControlForm s) (hidle : s.hasCommand = false)
    (hc : s.initialized = false ∧ c = byteI
      ∨ s.initialized = true ∧ (c = byteI ∨ c = byteP ∨ c = byteS ∨ c = byteW)) :
    ControlForm (acceptCommand c s) := by
  have hnone : ¬s.hasCommand = true := Bool.eq_false_iff.1 hidle
  obtain hA | hB | ⟨_, _, hpending, _⟩ | ⟨_, _, _, hpending, _⟩ | ⟨_, _, _, hpending, _⟩ := h
  · obtain ⟨_, rfl⟩ | ⟨hphase, _⟩ := hc
    · exact .inr (.inr (.inl ⟨0, lengthA_zero_of_idleA hA⟩))
    · exact absurd hphase (by simp [hA.1])
  · obtain ⟨hphase, _⟩ | ⟨_, hcommand⟩ := hc
    · exact absurd hphase (by simp [hB.1])
    · exact .inr (.inr (.inr (.inl ⟨c, 0, numB_zero_of_idleB hcommand hB⟩)))
  · exact absurd hpending hnone
  · exact absurd hpending hnone
  · exact absurd hpending hnone

/-- A digit before the last of a numeric field moves its cursor on (R84, R96). -/
theorem controlForm_accumulateNum {s : State} (n : Nibble) (h : ControlForm s) (hpending : s.hasCommand = true)
    (hfield : s.initialized = false ∨ s.hasNumParam = false) (hlast : s.paramPos ≠ 3#8) :
    ControlForm (accumulateNum n s) := by
  obtain ⟨k, hphase, _, hcommand, hnum, hpos, hk, hcolor⟩ | ⟨c, k, hphase, _, hcommand, hc, hnum, hpos, hk, hcolor⟩
    | ⟨c, k, hphase, _, _, _, hcol, _⟩ := controlForm_field_of_pending h hpending
  · exact .inr (.inr (.inl ⟨k + 1, hphase, hpending, hcommand, hnum, show (s.paramPos + 1#8).toNat = k + 1 by bv_omega,
      by bv_omega, hcolor⟩))
  · exact .inr (.inr (.inr (.inl ⟨c, k + 1, hphase, hpending, hcommand, hc, hnum,
      show (s.paramPos + 1#8).toNat = k + 1 by bv_omega, by bv_omega, hcolor⟩)))
  · simp [hphase, hcol] at hfield

/-- The last digit of a numeric field that the checks let pass opens the colour field, the colour zero (R99). -/
theorem controlForm_enterColor {s : State} (n : Nibble) (h : ControlForm s) (hpending : s.hasCommand = true)
    (hphase : s.initialized = true) (hfield : s.hasNumParam = false)
    (hle : (accumulateNum n s).numParam ≤ s.strip.pixelCount)
    (hcommand : s.command = byteS ∨ s.command = byteP
      ∧ (s.params.pixelGuardPoint = .atParamComplete → (accumulateNum n s).numParam ≠ s.strip.pixelCount)) :
    ControlForm { accumulateNum n s with hasNumParam := true, paramPos := 0x00#8 } := by
  obtain ⟨k, hA, _⟩ | ⟨_, _, _, _, _, _, _, _, _, hcolor⟩ | ⟨_, _, _, _, _, _, hcol, _⟩ :=
    controlForm_field_of_pending h hpending
  · exact absurd hphase (by simp [hA])
  · have hPS : s.command = byteP ∨ s.command = byteS := (hcommand.imp_right And.left).symm
    refine .inr (.inr (.inr (.inr ⟨s.command, 0, hphase, hpending, rfl, hPS, rfl, rfl, by decide, hle, ?_, ?_⟩)))
    · rintro hP (hpoint | hlate)
      · obtain hS | ⟨_, hne⟩ := hcommand
        · exact absurd (hP.symm.trans hS) (by decide)
        · exact hne hpoint
      · exact absurd hlate (by decide)
    · change s.colorParam.toNat < 1
      rw [hcolor]
      decide
  · exact absurd hcol (by simp [hfield])

/-- A digit before the last of a colour field moves its cursor on; at the first one the late guard has now been made (R96,
R100). -/
theorem controlForm_accumulateColor {s : State} (n : Nibble) (h : ControlForm s) (hpending : s.hasCommand = true)
    (hphase : s.initialized = true) (hcol : s.hasNumParam = true) (hguard : ¬LateGuardFails s)
    (hlast : s.paramPos ≠ 5#8) : ControlForm (accumulateColor n s) := by
  obtain ⟨c, k, _, _, hcommand, hPS, _, hpos, hk, hle, hkept, hcolor⟩ :=
    controlForm_colorB_of_pending h hpending hphase hcol
  have hkept' : c = byteP → s.numParam ≠ s.strip.pixelCount := by
    intro hP
    by_cases hmade : s.params.pixelGuardPoint = .atParamComplete ∨ 0 < k
    · exact hkept hP hmade
    · obtain ⟨hpoint, hfirst⟩ := not_or.1 hmade
      have hlate : s.params.pixelGuardPoint = .atFirstColorByte := by
        cases hpoint' : s.params.pixelGuardPoint with
        | atParamComplete => exact absurd hpoint' hpoint
        | atFirstColorByte => rfl
      have hdue : lateGuardDue s = true := (lateGuardDue_iff s).2 ⟨hlate, hcommand.trans hP, by bv_omega⟩
      exact fun heq => hguard ⟨hdue, heq⟩
  exact .inr (.inr (.inr (.inr ⟨c, k + 1, hphase, hpending, hcommand, hPS, hcol,
    show (s.paramPos + 1#8).toNat = k + 1 by bv_omega, by bv_omega, hle, fun hP _ => hkept' hP,
    nextColor_lt hpos hk hcolor n⟩)))

/-- A move of the parser goes from one of the five forms to one of them (R22 to R25). -/
theorem ParserMove.controlForm {s t : State} (h : ParserMove s t) (hform : ControlForm s) : ControlForm t := by
  cases h with
  | ignore => exact hform
  | reset => exact controlForm_of_neutral (parserReset_neutral s)
  | accept c hidle hc => exact controlForm_acceptCommand hform hidle hc
  | numDigit n hpending hfield hpos => exact controlForm_accumulateNum n hform hpending hfield hpos
  | enterColor n hpending hphase hfield hle hcommand =>
    exact controlForm_enterColor n hform hpending hphase hfield hle hcommand
  | colorDigit n hpending hphase hfield hguard hpos =>
    exact controlForm_accumulateColor n hform hpending hphase hfield hguard hpos

/-- Every effect leaves one of the five forms: a parser move, or a completion that resets the parser (R75). -/
theorem Effect.controlForm {s t : State} {es : List Event} (h : Effect s es t) (hform : ControlForm s) :
    ControlForm t := by
  cases h with
  | quiet hmove => exact hmove.controlForm hform
  | report d => exact controlForm_of_neutral (raiseDiag_neutral d s)
  | initCompletes n =>
    rw [finishInitA_eq]
    exact controlForm_of_neutral (parserReset_neutral _)
  | pixel c => exact controlForm_of_neutral (parserReset_neutral _)
  | fills c k => exact controlForm_of_neutral (parserReset_neutral _)

/-- A step keeps the invariant. -/
theorem inv_of_step {s t : State} (hinv : Inv s) (hstep : step s = .next t) : Inv t := by
  obtain ⟨es, heffect⟩ := effect_of_step hstep
  obtain ⟨hform, hmemory⟩ : Inv (afterFetch s) := hinv
  exact ⟨heffect.controlForm hform, heffect.memoryForm hmemory⟩

/-- Settles O40: the invariant speaks of nothing that the fetch writes, and every effect keeps it. -/
theorem stepKeepsInv : Obligations.StepKeepsInv :=
  fun _ _ => inv_of_step

/-! ### Runs do not stop -/

/-- In a control form no colour field is blocked: its command is PIXEL or SHADE, its number at most the count, and PIXEL's
guard has been made before the last digit (R23, R37). -/
theorem not_colorBlocked {s : State} (h : ControlForm s) : ¬ColorBlocked s := by
  rintro ⟨⟨hpending, hphase, hcol, hlast⟩, hnotP, hnotS⟩
  obtain ⟨c, k, _, _, rfl, hP | hS, _, hpos, _, hle, hkept, _⟩ := controlForm_colorB_of_pending h hpending hphase hcol
  · have hlate : 0 < k := by rw [← hpos, hlast]; decide
    have hne : s.numParam ≠ s.strip.pixelCount := hkept hP (.inr hlate)
    exact hnotP ⟨hP, by bv_omega⟩
  · exact hnotS ⟨hS, hle⟩

/-- From the invariant a step answers a next state. -/
theorem step_next_of_inv {s : State} (hinv : Inv s) : ∃ t, step s = .next t := by
  obtain ⟨hform, _⟩ : Inv (afterFetch s) := hinv
  have hanswers := answers_step s
  generalize step s = r at hanswers ⊢
  cases hanswers with
  | next heffect => exact ⟨_, rfl⟩
  | refused hblocked => exact absurd hblocked (not_colorBlocked hform)

/-- Settles O41, by induction on the number of steps: each one gives a next state, in which the invariant holds again. -/
theorem runNeverStops : Obligations.RunNeverStops := by
  unfold Obligations.RunNeverStops
  intro s hinv n
  induction n generalizing s with
  | zero => exact ⟨s, runSteps_zero s⟩
  | succ n ih =>
    obtain ⟨t, hstep⟩ := step_next_of_inv hinv
    obtain ⟨u, hrun⟩ := ih t (inv_of_step hinv hstep)
    exact ⟨u, (runSteps_succ n hstep).trans hrun⟩

end Sys2Proof.Proofs
end

section
/-! The statements about runs over whole messages (R60, R86, R125, R153, R156): byte by byte, field by field, message by
message. -/

namespace Sys2Proof.Proofs

open Sys2Proof.Machine

/-! ### Runs -/

/-- A run goes on from where its first part ended. -/
theorem runSteps_add {m : Nat} {s t : State} (n : Nat) (h : runSteps m s = .next t) : runSteps (m + n) s = runSteps n t := by
  induction m generalizing s with
  | zero =>
    obtain rfl : s = t := Host.Outcome.next.inj h
    rw [Nat.zero_add]
  | succ m ih =>
    rw [Nat.add_right_comm]
    cases hstep : step s with
    | next u =>
      rw [runSteps_succ _ hstep] at h ⊢
      exact ih h
    | fault r => cases r
    | refused r => simp [runSteps, hstep] at h

/-- The step on a waiting byte is `FeedByte` of it (R71). -/
theorem step_eq_feedByte {s : State} {a : Arrival} {rest : List Arrival} (h : s.input = a :: rest) :
    step s = feedByte a.byte (fed [a] rest s) := stepIsFeedByte s a rest h

/-- A run that begins with a waiting byte. -/
theorem runSteps_succ_of_feedByte {s t : State} {a : Arrival} {rest : List Arrival} (n : Nat) (h : s.input = a :: rest)
    (hfeed : feedByte a.byte (fed [a] rest s) = .next t) : runSteps (n + 1) s = runSteps n t :=
  runSteps_succ n ((step_eq_feedByte h).trans hfeed)

/-- `FeedByte` of each byte that `ok` allows is the update `act`, as long as `Good` holds: `Good k` leaves room for `k` more
bytes. Neither reads or writes the queue or the clock. -/
structure ActsBytewise (act : Byte → State → State) (Good : Nat → State → Prop) (ok : Byte → Prop) : Prop where
  fed_act : ∀ b as rest s, act b (fed as rest s) = fed as rest (act b s)
  good_fed : ∀ k as rest s, Good k s → Good k (fed as rest s)
  feedByte_eq : ∀ k b s, Good (k + 1) s → ok b → feedByte b s = .next (act b s)
  good_act : ∀ k b s, Good (k + 1) s → ok b → Good k (act b s)

/-- The updates of some bytes, one after another. -/
def actAll (act : Byte → State → State) (bs : List Byte) (s : State) : State := bs.foldl (fun t b => act b t) s

section

variable {act : Byte → State → State} {Good : Nat → State → Prop} {ok : Byte → Prop}

/-- The updates do not meet the queue and the clock. -/
theorem ActsBytewise.actAll_fed (h : ActsBytewise act Good ok) (bs : List Byte) (as rest : List Arrival) (s : State) :
    actAll act bs (fed as rest s) = fed as rest (actAll act bs s) := by
  induction bs generalizing s with
  | nil => rfl
  | cons b bs ih =>
    change actAll act bs (act b (fed as rest s)) = fed as rest (actAll act bs (act b s))
    rw [h.fed_act, ih]

/-- With its own queue and clock, a state is fed nothing. -/
theorem fed_nil {s : State} {rest : List Arrival} (h : s.input = rest) : fed [] rest s = s := by
  obtain ⟨⟩ := s
  obtain rfl := h
  rfl

/-- A run over bytes with known updates is the updates one after another, the bytes taken and the clock at the last one's
value. -/
theorem ActsBytewise.runSteps_eq (h : ActsBytewise act Good ok) {as rest : List Arrival} {s : State}
    (hinput : s.input = as ++ rest) (hgood : Good as.length s) (hok : ∀ a ∈ as, ok a.byte) :
    runSteps as.length s = .next (fed as rest (actAll act (as.map Arrival.byte) s)) := by
  induction as generalizing s with
  | nil => exact congrArg Host.Outcome.next (fed_nil hinput).symm
  | cons a as ih =>
    obtain ⟨hoka, hokas⟩ := List.forall_mem_cons.1 hok
    have hgood' : Good (as.length + 1) (fed [a] (as ++ rest) s) := h.good_fed _ _ _ _ hgood
    have hact := h.fed_act a.byte [a] (as ++ rest) s
    have hfeed := h.feedByte_eq _ _ _ hgood' hoka
    have hnext := h.good_act _ _ _ hgood' hoka
    rw [hact] at hfeed hnext
    rw [List.length_cons, runSteps_succ_of_feedByte _ hinput hfeed, ih rfl hnext hokas, h.actAll_fed]
    rfl

/-- What is fed in two parts is fed at once. -/
theorem fed_fed (as₁ as₂ rest₁ rest₂ : List Arrival) (s : State) :
    fed as₂ rest₂ (fed as₁ rest₁ s) = fed (as₁ ++ as₂) rest₂ s := by
  simp only [fed, lastNow, List.foldl_append]

/-- The room that is left after the bytes. -/
theorem ActsBytewise.good_actAll (h : ActsBytewise act Good ok) {bs : List Byte} {s : State}
    (hgood : Good bs.length s) (hok : ∀ b ∈ bs, ok b) : Good 0 (actAll act bs s) := by
  induction bs generalizing s with
  | nil => exact hgood
  | cons b bs ih =>
    obtain ⟨hokb, hokbs⟩ := List.forall_mem_cons.1 hok
    exact ih (h.good_act _ _ _ hgood hokb) hokbs

/-- A run over bytes with known updates and one byte more, which finds no room left. -/
theorem ActsBytewise.runSteps_last (h : ActsBytewise act Good ok) {as rest : List Arrival} {a : Arrival} {s t : State}
    (hinput : s.input = (as ++ [a]) ++ rest) (hgood : Good as.length s) (hok : ∀ b ∈ as, ok b.byte)
    (hlast : ∀ u, Good 0 u → u = fed (as ++ [a]) rest (actAll act (as.map Arrival.byte) s) →
      feedByte a.byte u = .next t) :
    runSteps (as.length + 1) s = .next t := by
  have hfront : s.input = as ++ (a :: rest) := hinput.trans (List.append_assoc ..)
  have hroom : Good 0 (actAll act (as.map Arrival.byte) s) :=
    h.good_actAll (by rwa [List.length_map]) (List.forall_mem_map.2 hok)
  rw [runSteps_add 1 (h.runSteps_eq hfront hgood hok)]
  refine runSteps_succ_of_feedByte 0 rfl ?_
  rw [fed_fed]
  exact hlast _ (h.good_fed _ _ _ _ hroom) rfl

end

/-! ### Noise at top level -/

/-- What bytes without `'I'` emit before an INIT (R86): a report for each `'V'`. -/
def noiseEvents (bs : List Byte) (p : Params) : List Event := List.replicate (bs.count byteV) (versionEvent p)

theorem noiseEvents_cons (b : Byte) (bs : List Byte) (p : Params) :
    noiseEvents (b :: bs) p = noiseEvents [b] p ++ noiseEvents bs p := by
  rw [noiseEvents, noiseEvents, noiseEvents, ← List.replicate_add, ← List.count_append, List.singleton_append]

/-- A byte that is not `'I'` in `IdleA` (R82, R83). -/
def noiseAct (b : Byte) (s : State) : State := { s with events := s.events ++ noiseEvents [b] s.params }

/-- In `IdleA` every byte but `'I'` is noise (R86). -/
theorem noise_actsBytewise : ActsBytewise noiseAct (fun _ => IdleA) (· ≠ byteI) where
  fed_act _ _ _ _ := rfl
  good_fed _ _ _ _ h := h
  good_act _ _ _ h _ := h
  feedByte_eq _ b s h hI := by
    obtain ⟨hphase, hneutral⟩ := h
    rw [feedByte_topLevel hneutral.1, if_pos hphase, topA, if_neg hI, noiseAct, noiseEvents]
    split_ifs with hV
    · subst hV
      exact congrArg Host.Outcome.next (reportVersion_of_neutral hneutral)
    · rw [List.count_eq_zero_of_not_mem (by simpa using Ne.symm hV), List.replicate_zero, List.append_nil]
      rfl

/-- The noise of several bytes. -/
theorem actAll_noiseAct (bs : List Byte) (s : State) :
    actAll noiseAct bs s = { s with events := s.events ++ noiseEvents bs s.params } := by
  induction bs generalizing s with
  | nil => simp [actAll, noiseEvents]
  | cons b bs ih =>
    have hevents : (noiseAct b s).events ++ noiseEvents bs s.params = s.events ++ noiseEvents (b :: bs) s.params := by
      rw [noiseEvents_cons, ← List.append_assoc]
      rfl
    exact (ih (noiseAct b s)).trans (congrArg (fun es => { s with events := es }) hevents)

/-- Settles O50: the noise of each byte, over the queue. -/
theorem uninitialisedNoiseIgnored : Obligations.UninitialisedNoiseIgnored := by
  unfold Obligations.UninitialisedNoiseIgnored
  intro s as rest hidle hinput hnoI
  have hcount : as.countP (fun a => a.byte == byteV) = (as.map Arrival.byte).count byteV := by
    rw [List.count, List.countP_map]
    rfl
  rw [noise_actsBytewise.runSteps_eq hinput hidle hnoI, actAll_noiseAct, hcount]
  rfl

/-- No hex digit is a command byte of Phase B (R53, R58). -/
theorem isCommandB_eq_false_of_isHexByte {b : Byte} (h : IsHexByte b) : isCommandB b = false := by
  rw [IsHexByte, isDecByte_iff, isUcByte_iff, isLcByte_iff] at h
  rw [isCommandB_eq_false_iff]
  refine ⟨?_, ?_, ?_, ?_, ?_, ?_⟩ <;> rintro rfl <;> revert h <;> decide

/-- In `IdleB` a byte that is no command changes nothing (R94). -/
theorem feedByte_of_idleB {b : Byte} {s : State} (h : IdleB s) (hb : isCommandB b = false) : feedByte b s = .next s := by
  rw [← exec_decodeByte_eq_feedByte, decodeMode_of_neutral h.2, if_pos h.1, decodeByte_topB_of_not_isCommandB hb,
    exec_unrecognizedB, parserReset_of_neutral h.2]

/-- In `IdleB` a hex digit does nothing (R153). -/
theorem leftover_actsBytewise : ActsBytewise (fun _ s => s) (fun _ => IdleB) IsHexByte where
  fed_act _ _ _ _ := rfl
  good_fed _ _ _ _ h := h
  good_act _ _ _ h _ := h
  feedByte_eq _ _ _ h hhex := feedByte_of_idleB h (isCommandB_eq_false_of_isHexByte hhex)

/-- Settles O51: doing nothing, for each byte. -/
theorem leftoverDigitsDropped : Obligations.LeftoverDigitsDropped := by
  unfold Obligations.LeftoverDigitsDropped
  intro s as rest hidle hinput hhex
  have hnothing : ∀ bs : List Byte, actAll (fun _ s => s) bs s = s := List.foldl_fixed
  rw [leftover_actsBytewise.runSteps_eq hinput hidle hhex, hnothing]

end Sys2Proof.Proofs
end

section
/-! The statements about whole INIT, PIXEL, SHADE and LATCH_FRAME messages (R60, R81 to R85, R91, R93, R97, R104, R105, R121,
R125, R156). -/

namespace Sys2Proof.Proofs

open Sys2Proof.Machine

/-! ### The fields -/

/-- A numeric field is pending in either phase, and the digit after `k` more completes it. -/
def NumRoom (k : Nat) (s : State) : Prop := s.hasCommand = true ∧ s.hasNumParam = false ∧ s.paramPos.toNat + k = 3

/-- With room, each byte but `'I'` is a digit of the number (R84, R96; D8). -/
theorem num_actsBytewise : ActsBytewise (fun b => accumulateNum (hexVal b)) NumRoom (· ≠ byteI) where
  fed_act _ _ _ _ := rfl
  good_fed _ _ _ _ h := h
  good_act k b s h _ := by
    obtain ⟨hpending, hnum, hpos⟩ := h
    exact ⟨hpending, hnum, show (s.paramPos + 1#8).toNat + k = 3 by bv_omega⟩
  feedByte_eq k b s h hI := by
    obtain ⟨hpending, hnum, hpos⟩ := h
    rw [feedByte_digit hpending hI, takeDigit_num_before_last _ hnum (by bv_omega)]

/-- A colour field is pending past the late guard, and the digit after `k` more completes it. -/
def ColorRoom (k : Nat) (s : State) : Prop :=
  s.hasCommand = true ∧ s.initialized = true ∧ s.hasNumParam = true ∧ ¬LateGuardFails s ∧ s.paramPos.toNat + k = 5

/-- With room, each byte but `'I'` is a digit of the colour (R96; D8). -/
theorem color_actsBytewise : ActsBytewise (fun b => accumulateColor (hexVal b)) ColorRoom (· ≠ byteI) where
  fed_act _ _ _ _ := rfl
  good_fed _ _ _ _ h := h
  good_act k b s h _ := by
    obtain ⟨hpending, hphase, hcol, _, hpos⟩ := h
    have hnext : (s.paramPos + 1#8).toNat + k = 5 := by bv_omega
    have hguard : ¬LateGuardFails (accumulateColor (hexVal b) s) :=
      not_lateGuardFails_of_pos (show s.paramPos + 1#8 ≠ 0#8 by bv_omega)
    exact ⟨hpending, hphase, hcol, hguard, hnext⟩
  feedByte_eq k b s h hI := by
    obtain ⟨hpending, hphase, hcol, hguard, hpos⟩ := h
    rw [feedByte_digit hpending hI, takeDigit_color _ hphase hcol hguard, if_neg (by bv_omega)]

/-- What completes a numeric field, by the phase (R71). -/
def completeNum (s : State) : State := if s.initialized then finishNumB s else finishInitA s

/-- The last digit of a numeric field in either phase (R85, R97). -/
theorem takeDigit_completeNum {s : State} (n : Nibble) (hnum : s.hasNumParam = false) (hpos : s.paramPos = 3#8) :
    takeDigit n s = .next (completeNum (accumulateNum n s)) := by
  rw [completeNum, accumulateNum_initialized]
  cases hphase : s.initialized with
  | false =>
    rw [takeDigit_length n hphase, if_pos hpos]
    rfl
  | true =>
    rw [takeDigit_num n hphase hnum, if_pos hpos]
    rfl

/-- The updates of bytes and of one byte more. -/
theorem actAll_concat (act : Byte → State → State) (bs : List Byte) (b : Byte) (s : State) :
    actAll act (bs ++ [b]) s = act b (actAll act bs s) := by
  rw [actAll, List.foldl_append]
  rfl

/-- Four digits from cursor 0 leave the number they spell (R61, R115). -/
theorem actAll_num {bs : List Byte} {s : State} (hlength : bs.length = 4) (hpos : s.paramPos = 0#8) :
    actAll (fun b => accumulateNum (hexVal b)) bs s =
      { s with numParam := BitVec.ofNat 16 (fieldValue bs), paramPos := 4#8 } := by
  match bs, hlength with
  | [b0, b1, b2, b3], _ => exact numericFieldValue s b0 b1 b2 b3 hpos

/-- Six digits from cursor 0 leave the colour they spell (R62, R115). -/
theorem actAll_color {bs : List Byte} {s : State} (hlength : bs.length = 6) (hpos : s.paramPos = 0#8) :
    actAll (fun b => accumulateColor (hexVal b)) bs s =
      { s with colorParam := BitVec.ofNat 32 (fieldValue bs), paramPos := 6#8 } := by
  match bs, hlength with
  | [b0, b1, b2, b3, b4, b5], _ => exact colorFieldValue s b0 b1 b2 b3 b4 b5 hpos

/-- A whole numeric field (R61, R115): four bytes complete it with the number they spell. -/
theorem runSteps_numField {as rest : List Arrival} {s : State} (hinput : s.input = as ++ rest) (hlength : as.length = 4)
    (hI : ∀ a ∈ as, a.byte ≠ byteI) (hpending : s.hasCommand = true) (hnum : s.hasNumParam = false)
    (hpos : s.paramPos = 0#8) :
    runSteps 4 s =
      .next (completeNum (fed as rest
        { s with numParam := BitVec.ofNat 16 (fieldValue (as.map Arrival.byte)), paramPos := 4#8 })) := by
  have hbytes : (as.map Arrival.byte).length = 4 := (List.length_map ..).trans hlength
  rw [← actAll_num hbytes hpos]
  obtain rfl | ⟨front, a, rfl⟩ := List.eq_nil_or_concat' as
  · exact absurd hlength (by decide)
  · have hfront : front.length = 3 := by simpa using hlength
    obtain ⟨hIfront, hIlast⟩ := List.forall_mem_append.1 hI
    have hroom : NumRoom front.length s := ⟨hpending, hnum, by rw [hpos, hfront]; rfl⟩
    rw [show 4 = front.length + 1 by rw [hfront]]
    refine num_actsBytewise.runSteps_last hinput hroom hIfront fun u hu heq => ?_
    obtain ⟨hpending', hnum', hpos'⟩ := hu
    rw [feedByte_digit hpending' (hIlast a List.mem_cons_self), takeDigit_completeNum _ hnum' (by bv_omega), heq,
      List.map_append, List.map_singleton, actAll_concat]
    rfl

/-- A whole colour field past the late guard (R62, R115): six bytes complete it with the colour they spell. -/
theorem runSteps_colorField {as rest : List Arrival} {s t : State} (hinput : s.input = as ++ rest)
    (hlength : as.length = 6) (hI : ∀ a ∈ as, a.byte ≠ byteI) (hpending : s.hasCommand = true)
    (hphase : s.initialized = true) (hcol : s.hasNumParam = true) (hguard : ¬LateGuardFails s) (hpos : s.paramPos = 0#8)
    (hcompletes : finishColorB (fed as rest
      { s with colorParam := BitVec.ofNat 32 (fieldValue (as.map Arrival.byte)), paramPos := 6#8 }) = .next t) :
    runSteps 6 s = .next t := by
  have hbytes : (as.map Arrival.byte).length = 6 := (List.length_map ..).trans hlength
  rw [← actAll_color hbytes hpos] at hcompletes
  obtain rfl | ⟨front, a, rfl⟩ := List.eq_nil_or_concat' as
  · exact absurd hlength (by decide)
  · have hfront : front.length = 5 := by simpa using hlength
    obtain ⟨hIfront, hIlast⟩ := List.forall_mem_append.1 hI
    have hroom : ColorRoom front.length s := ⟨hpending, hphase, hcol, hguard, by rw [hpos, hfront]; rfl⟩
    rw [show 6 = front.length + 1 by rw [hfront]]
    refine color_actsBytewise.runSteps_last hinput hroom hIfront fun u hu heq => ?_
    obtain ⟨hpending', hphase', hcol', hguard', hpos'⟩ := hu
    rw [feedByte_digit hpending' (hIlast a List.mem_cons_self), takeDigit_color _ hphase' hcol' hguard',
      if_pos (by bv_omega), heq, ← hcompletes, List.map_append, List.map_singleton, actAll_concat]
    rfl

/-! ### Messages -/

/-- The state in which the number `v` of the command `c` is complete. -/
def pendingNum (c : Byte) (v : U16) (s : State) : State :=
  { s with hasCommand := true, command := c, numParam := v, paramPos := 4#8 }

/-- A command byte and four digits from an idle state (R60, R81, R91, R93): the number they spell completes the field. -/
theorem runSteps_command {as rest : List Arrival} {c : Byte} {digits : List Byte} {s : State}
    (hinput : s.input = as ++ rest) (hbytes : as.map Arrival.byte = c :: digits) (hlength : digits.length = 4)
    (hI : byteI ∉ digits) (hneutral : Neutral s) (haccept : ∀ u, u.hasCommand = false → u.initialized = s.initialized →
      feedByte c u = .next (acceptCommand c u)) :
    runSteps 5 s = .next (completeNum (fed as rest (pendingNum c (BitVec.ofNat 16 (fieldValue digits)) s))) := by
  obtain ⟨a, as, rfl, rfl, rfl⟩ := List.map_eq_cons_iff.1 hbytes
  obtain ⟨hidle, _, hnum, _⟩ := hneutral
  have hnoI : ∀ b ∈ as, b.byte ≠ byteI := fun b hb heq => hI (List.mem_map.2 ⟨b, hb, heq⟩)
  rw [List.length_map] at hlength
  have hfield := runSteps_numField (as := as) (rest := rest) (s := acceptCommand a.byte (fed [a] (as ++ rest) s)) rfl
    hlength hnoI rfl hnum rfl
  exact (runSteps_succ_of_feedByte 4 hinput (haccept _ hidle rfl)).trans hfield

/-- In `IdleA` the byte `'I'` is accepted (R81). -/
theorem feedByte_initA {s : State} (hidle : s.hasCommand = false) (hphase : s.initialized = false) :
    feedByte byteI s = .next (acceptCommand byteI s) := by
  rw [feedByte_topLevel hidle, if_pos hphase]
  rfl

/-- In `IdleB` the bytes `'P'` and `'S'` are accepted (R91, R93). -/
theorem feedByte_command {c : Byte} {s : State} (hc : c = byteP ∨ c = byteS) (hidle : s.hasCommand = false)
    (hphase : s.initialized = true) : feedByte c s = .next (acceptCommand c s) := by
  rw [feedByte_topLevel hidle, hphase]
  obtain rfl | rfl := hc <;> rfl

/-- A reset hides the parser's registers: where the state aimed at is neutral, only the rest has to agree. -/
theorem next_parserReset_eq {s t : State} (hneutral : Neutral t) (h : parserReset s = parserReset t) :
    (.next (parserReset s) : Result) = .next t := by
  rw [h, parserReset_of_neutral hneutral]

/-- Settles O52: `'I'` opens the length field, the four bytes complete it, and `finishInitA_eq` says what the strip makes of
it. -/
theorem initMessageConfigures : Obligations.InitMessageConfigures := by
  unfold Obligations.InitMessageConfigures
  rintro s as rest digits v count ⟨hphase, hneutral⟩ hinput hbytes hlength hI rfl rfl
  have hrun := runSteps_command hinput hbytes hlength hI hneutral fun u hidle hu => feedByte_initA hidle (hu.trans hphase)
  generalize BitVec.ofNat 16 (fieldValue digits) = v at hrun ⊢
  have hset : (if stripResize s.params v = 0#16 then s.initialized else true)
      = decide (stripResize s.params v ≠ 0#16) := by
    rw [hphase]
    split_ifs with hcount
    · exact (decide_eq_false (not_not.2 hcount)).symm
    · exact (decide_eq_true hcount).symm
  have hcomplete : completeNum (fed as rest (pendingNum byteI v s)) = finishInitA (fed as rest (pendingNum byteI v s)) :=
    if_neg (Bool.eq_false_iff.1 hphase)
  rw [hrun, hcomplete, finishInitA_eq, ← hset]
  exact next_parserReset_eq hneutral rfl

/-- The state at the first digit of the colour field of the command `c`, whose number is `v`. -/
def pendingColor (c : Byte) (v : U16) (s : State) : State :=
  { pendingNum c v s with hasNumParam := true, paramPos := 0#8 }

/-- The state in which the colour `col` of the command `c` with the number `v` is complete. -/
def completedColor (c : Byte) (v : U16) (col : U32) (s : State) : State :=
  { pendingColor c v s with colorParam := col, paramPos := 6#8 }

/-- The first five bytes of a PIXEL or a SHADE (R97). -/
theorem runSteps_number {as rest : List Arrival} {c : Byte} {digits : List Byte} {s : State} (hidle : IdleB s)
    (hinput : s.input = as ++ rest) (hbytes : as.map Arrival.byte = c :: digits) (hlength : digits.length = 4)
    (hI : byteI ∉ digits) (hc : c = byteP ∨ c = byteS) :
    runSteps 5 s = .next (finishNumB (fed as rest (pendingNum c (BitVec.ofNat 16 (fieldValue digits)) s))) := by
  obtain ⟨hphase, hneutral⟩ := hidle
  rw [runSteps_command hinput hbytes hlength hI hneutral fun u hu hsame => feedByte_command hc hu (hsame.trans hphase)]
  exact congrArg Host.Outcome.next (if_pos hphase)

/-- A number that the checks let pass opens the colour field (R99). -/
theorem finishNumB_pendingNum {c : Byte} {v : U16} {as rest : List Arrival} {s : State} (hc : c = byteP ∨ c = byteS)
    (hle : v ≤ s.strip.pixelCount)
    (hpasses : ¬(c = byteP ∧ s.params.pixelGuardPoint = .atParamComplete ∧ v = s.strip.pixelCount)) :
    finishNumB (fed as rest (pendingNum c v s)) = fed as rest (pendingColor c v s) :=
  (finishNumB_of_color (s := fed as rest (pendingNum c v s)) hc.symm hle).trans (finishEnterColor_of_passes hpasses)

/-- In the colour field the late guard fails for PIXEL with the index equal to the count only (R100). -/
theorem not_lateGuardFails_pendingColor {c : Byte} {v : U16} {as rest : List Arrival} {s : State}
    (h : ¬(c = byteP ∧ v = s.strip.pixelCount)) : ¬LateGuardFails (fed as rest (pendingColor c v s)) := by
  rintro ⟨hdue, heq⟩
  obtain ⟨_, hP, _⟩ := (lateGuardDue_iff _).1 hdue
  exact h ⟨hP, heq⟩

/-- The bytes of a PIXEL or a SHADE (R60): the command `c`, four bytes that spell `v` and six that spell `col`, none of them
`'I'`. -/
structure ColorMessage (as : List Arrival) (c : Byte) (number color : List Byte) (v : U16) (col : U32) : Prop where
  bytes : as.map Arrival.byte = c :: number ++ color
  command : c = byteP ∨ c = byteS
  number_length : number.length = 4
  color_length : color.length = 6
  number_noAbort : byteI ∉ number
  color_noAbort : byteI ∉ color
  number_value : v = BitVec.ofNat 16 (fieldValue number)
  color_value : col = BitVec.ofNat 32 (fieldValue color)

/-- A whole PIXEL or SHADE whose number the checks let pass runs to the completion of its colour field (R60, R103). -/
theorem ColorMessage.runSteps_eq {as rest : List Arrival} {c : Byte} {number color : List Byte} {v : U16} {col : U32}
    {s t : State} (h : ColorMessage as c number color v col) (hidle : IdleB s) (hinput : s.input = as ++ rest)
    (hle : v ≤ s.strip.pixelCount) (hne : ¬(c = byteP ∧ v = s.strip.pixelCount))
    (hcompletes : finishColorB (fed as rest (completedColor c v col s)) = .next t) : runSteps 11 s = .next t := by
  obtain ⟨hbytes, hc, hnumber, hcolor, hInumber, hIcolor, hv, hcol⟩ := h
  obtain ⟨front, back, rfl, hfront, rfl⟩ := List.map_eq_append_iff.1 hbytes
  have hnoI : ∀ a ∈ back, a.byte ≠ byteI := fun a ha heq => hIcolor (List.mem_map.2 ⟨a, ha, heq⟩)
  rw [List.length_map] at hcolor
  have hfrontInput : s.input = front ++ (back ++ rest) := hinput.trans (List.append_assoc ..)
  have hrun := runSteps_number hidle hfrontInput hfront hnumber hInumber hc
  rw [← hv, finishNumB_pendingNum hc hle fun h => hne ⟨h.1, h.2.2⟩] at hrun
  rw [runSteps_add 6 hrun]
  obtain ⟨hphase, _⟩ := hidle
  refine runSteps_colorField (as := back) (rest := rest) rfl hcolor hnoI rfl hphase rfl
    (not_lateGuardFails_pendingColor hne) rfl ?_
  rw [← hcompletes, ← fed_fed front back (back ++ rest) rest, hcol]
  rfl

/-- Settles O53: the index below the count passes both guards, and the completed PIXEL is its one write. -/
theorem pixelMessageWritesPixel : Obligations.PixelMessageWritesPixel := by
  unfold Obligations.PixelMessageWritesPixel
  intro s as rest index color v c hidle hinput hbytes hindex hcolor hIindex hIcolor hv hc hlt
  have hmessage : ColorMessage as byteP index color v c :=
    ⟨hbytes, .inl rfl, hindex, hcolor, hIindex, hIcolor, hv, hc⟩
  have hlt' : v < s.strip.pixelCount := hlt
  refine hmessage.runSteps_eq hidle hinput (BitVec.le_of_lt hlt') (fun h => BitVec.ne_of_lt hlt' h.2) ?_
  rw [finishColorB_of_pixel (s := fed as rest (completedColor byteP v c s)) rfl,
    finishPixel_of_lt (s := fed as rest (completedColor byteP v c s)) hlt']
  exact next_parserReset_eq hidle.2 rfl

/-- Settles O54: the completed SHADE is the fill and the latch of `latch_fillPixels`, with the clock of the last byte. -/
theorem shadeMessageFills : Obligations.ShadeMessageFills := by
  unfold Obligations.ShadeMessageFills
  rintro s as rest number color v c now shows hidle hinput hbytes hnumber hcolor hInumber hIcolor hv hc hle rfl hshows
  have hmessage : ColorMessage as byteS number color v c :=
    ⟨hbytes, .inr rfl, hnumber, hcolor, hInumber, hIcolor, hv, hc⟩
  obtain ⟨hallowed, hevent⟩ := latchEvent_eq (s := fed as rest (completedColor byteS v c s)) hshows
  refine ⟨filledPixels c v.toNat (fed as rest (completedColor byteS v c s)), ?_, filledPixels_read c v _⟩
  refine hmessage.runSteps_eq hidle hinput hle (fun h => absurd h.1 (by decide)) ?_
  rw [finishColorB_of_shade (s := fed as rest (completedColor byteS v c s)) rfl,
    finishShade_of_le (s := fed as rest (completedColor byteS v c s)) hle]
  change Host.Outcome.next (parserReset (latch (fillPixels c v.toNat (fed as rest (completedColor byteS v c s))))) = _
  rw [latch_fillPixels, ← hevent, hallowed]
  exact next_parserReset_eq hidle.2 rfl

/-! ### The two guard points -/

/-- What a whole PIXEL message comes to, whatever its index (R97, R99, R100, R104). -/
def pixelMessageOutcome (as rest : List Arrival) (v : U16) (c : U32) (s : State) : State :=
  if v < s.strip.pixelCount then
    { fed as rest s with
      strip := { s.strip with pixels := s.strip.pixels.write v.toNat c }
      events := s.events ++ [.setPixel v c] }
  else
    { fed as rest s with
      events := s.events ++ [.diag (if v = s.strip.pixelCount then .enpEq v else .enp v byteP)] }

/-- No part of the outcome depends on the parameters. -/
theorem pixelMessageOutcome_params (as rest : List Arrival) (v : U16) (c : U32) (s : State) (p : Params) :
    pixelMessageOutcome as rest v c { s with params := p } = { pixelMessageOutcome as rest v c s with params := p } := by
  unfold pixelMessageOutcome
  change (if v < s.strip.pixelCount then _ else _) = _
  split_ifs <;> rfl

/-- After an error that was met in `t`, digits still to come are dropped: of the message only the report is left (R135,
R153). -/
theorem runSteps_error_then_leftover {m : Nat} {front back rest : List Arrival} {d : Diag} {s t : State} (hidle : IdleB s)
    (hrun : runSteps m s = .next (raiseDiag d t)) (hevents : t.events = s.events)
    (hreset : parserReset t = fed front (back ++ rest) s) (hhex : ∀ a ∈ back, IsHexByte a.byte) :
    runSteps (m + back.length) s = .next { fed (front ++ back) rest s with events := s.events ++ [.diag d] } := by
  have hraise : raiseDiag d t = { fed front (back ++ rest) s with events := s.events ++ [.diag d] } := by
    rw [← hreset, ← hevents]
    rfl
  have hidle' : IdleB (raiseDiag d t) := by
    rw [hraise]
    exact hidle
  have hinput : (raiseDiag d t).input = back ++ rest := by rw [hraise]; rfl
  rw [runSteps_add _ hrun, leftoverDigitsDropped _ back rest hidle' hinput hhex, hraise, ← fed_fed front back (back ++ rest)]
  rfl

/-- A reset in the numeric field gives back the idle state in which the command was accepted. -/
theorem parserReset_pendingNum {c : Byte} {v : U16} {as rest : List Arrival} {s : State} (h : Neutral s) :
    parserReset (fed as rest (pendingNum c v s)) = fed as rest s := parserReset_of_neutral (s := fed as rest s) h

/-- A reset in the colour field gives back the idle state in which the command was accepted. -/
theorem parserReset_pendingColor {c : Byte} {v : U16} {as rest : List Arrival} {s : State} (h : Neutral s) :
    parserReset (fed as rest (pendingColor c v s)) = fed as rest s := parserReset_of_neutral (s := fed as rest s) h

section

variable {front back rest : List Arrival} {v : U16} {s : State}

/-- PIXEL with the index above the count (R97): the colour's digits are dropped. -/
theorem runSteps_pixel_exceeds (hidle : IdleB s)
    (hrun : runSteps 5 s = .next (finishNumB (fed front (back ++ rest) (pendingNum byteP v s))))
    (hhex : ∀ a ∈ back, IsHexByte a.byte) (hlt : s.strip.pixelCount < v) :
    runSteps (5 + back.length) s =
      .next { fed (front ++ back) rest s with events := s.events ++ [.diag (.enp v byteP)] } := by
  rw [finishNumB_of_exceeds (s := fed front (back ++ rest) (pendingNum byteP v s)) hlt] at hrun
  exact runSteps_error_then_leftover hidle hrun rfl (parserReset_pendingNum hidle.2) hhex

/-- PIXEL with the index equal to the count, the guard made at the end of the number (R99): the colour's digits are
dropped. -/
theorem runSteps_pixel_early (hidle : IdleB s)
    (hrun : runSteps 5 s = .next (finishNumB (fed front (back ++ rest) (pendingNum byteP v s))))
    (hhex : ∀ a ∈ back, IsHexByte a.byte) (hpoint : s.params.pixelGuardPoint = .atParamComplete)
    (heq : v = s.strip.pixelCount) :
    runSteps (5 + back.length) s =
      .next { fed (front ++ back) rest s with events := s.events ++ [.diag (.enpEq v)] } := by
  rw [finishNumB_of_color (s := fed front (back ++ rest) (pendingNum byteP v s)) (.inr rfl) (BitVec.le_of_eq heq),
    finishEnterColor_of_guard (s := fed front (back ++ rest) (pendingNum byteP v s)) rfl hpoint heq] at hrun
  exact runSteps_error_then_leftover hidle hrun rfl (parserReset_pendingNum hidle.2) hhex

/-- PIXEL with the index equal to the count, the guard made at the first colour digit (R100), which it takes: the digits
after it are dropped. -/
theorem runSteps_pixel_late {a : Arrival} (hidle : IdleB s)
    (hrun : runSteps 5 s = .next (finishNumB (fed front (a :: back ++ rest) (pendingNum byteP v s))))
    (hI : a.byte ≠ byteI) (hhex : ∀ b ∈ back, IsHexByte b.byte)
    (hpoint : s.params.pixelGuardPoint = .atFirstColorByte) (heq : v = s.strip.pixelCount) :
    runSteps (6 + back.length) s =
      .next { fed (front ++ [a] ++ back) rest s with events := s.events ++ [.diag (.enpEq v)] } := by
  rw [finishNumB_pendingNum (.inl rfl) (BitVec.le_of_eq heq)
    (fun h => absurd (hpoint.symm.trans h.2.1) (by decide))] at hrun
  have hguard : feedByte a.byte (fed (front ++ [a]) (back ++ rest) (pendingColor byteP v s)) =
      .next (failLateGuard (fed (front ++ [a]) (back ++ rest) (pendingColor byteP v s))) := by
    have hdue : lateGuardDue (fed (front ++ [a]) (back ++ rest) (pendingColor byteP v s)) = true :=
      (lateGuardDue_iff _).2 ⟨hpoint, rfl, rfl⟩
    obtain ⟨hphase, _⟩ := hidle
    rw [feedByte_digit rfl hI, takeDigit_guard (s := fed (front ++ [a]) (back ++ rest) (pendingColor byteP v s)) _
      hphase rfl ⟨hdue, heq⟩]
  rw [← fed_fed front [a] (a :: back ++ rest)] at hguard
  have hrun6 := (runSteps_add 1 hrun).trans (runSteps_succ_of_feedByte 0 rfl hguard)
  rw [fed_fed] at hrun6
  exact runSteps_error_then_leftover hidle hrun6 rfl (parserReset_pendingColor hidle.2) hhex

end

theorem ne_byteI_of_isHexByte {b : Byte} (h : IsHexByte b) : b ≠ byteI := by
  obtain ⟨hI, _⟩ := (isCommandB_eq_false_iff b).1 (isCommandB_eq_false_of_isHexByte h)
  exact hI

/-- A whole PIXEL message with hex digits for its colour, for either guard point (R156). -/
theorem runSteps_pixelMessage {as rest : List Arrival} {index color : List Byte} {s : State} (hidle : IdleB s)
    (hinput : s.input = as ++ rest) (hbytes : as.map Arrival.byte = byteP :: index ++ color) (hindex : index.length = 4)
    (hcolor : color.length = 6) (hI : byteI ∉ index) (hhex : ∀ b ∈ color, IsHexByte b) :
    runSteps 11 s =
      .next (pixelMessageOutcome as rest (BitVec.ofNat 16 (fieldValue index)) (BitVec.ofNat 32 (fieldValue color)) s) := by
  generalize hv : BitVec.ofNat 16 (fieldValue index) = v
  have hIcolor : byteI ∉ color := fun h => ne_byteI_of_isHexByte (hhex _ h) rfl
  by_cases hlt : v < s.strip.pixelCount
  · rw [pixelMessageOutcome, if_pos hlt]
    exact pixelMessageWritesPixel s as rest index color v _ hidle hinput hbytes hindex hcolor hI hIcolor hv.symm rfl hlt
  · rw [pixelMessageOutcome, if_neg hlt]
    obtain ⟨front, back, rfl, hfront, rfl⟩ := List.map_eq_append_iff.1 hbytes
    have hhex' : ∀ a ∈ back, IsHexByte a.byte := List.forall_mem_map.1 hhex
    have hfrontInput : s.input = front ++ (back ++ rest) := hinput.trans (List.append_assoc ..)
    rw [List.length_map] at hcolor
    have hrun := runSteps_number hidle hfrontInput hfront hindex hI (.inl rfl)
    rw [hv] at hrun
    by_cases heq : v = s.strip.pixelCount
    · rw [if_pos heq]
      cases hpoint : s.params.pixelGuardPoint with
      | atParamComplete =>
        rw [show 11 = 5 + back.length by rw [hcolor]]
        exact runSteps_pixel_early hidle hrun hhex' hpoint heq
      | atFirstColorByte =>
        obtain ⟨a, back, rfl⟩ := List.exists_cons_of_length_eq_add_one hcolor
        obtain ⟨hhexa, hhexback⟩ := List.forall_mem_cons.1 hhex'
        have hback : back.length = 5 := Nat.succ.inj hcolor
        rw [show 11 = 6 + back.length by rw [hback], ← List.singleton_append (x := a) (l := back), ← List.append_assoc]
        exact runSteps_pixel_late hidle hrun (ne_byteI_of_isHexByte hhexa) hhexback hpoint heq
    · rw [if_neg heq, show 11 = 5 + back.length by rw [hcolor]]
      have hgt : s.strip.pixelCount < v := by bv_omega
      exact runSteps_pixel_exceeds hidle hrun hhex' hgt

/-- Settles O55: one outcome for either guard point, in which the parameters have no part. -/
theorem guardPointsAgreeOnFullMessage : Obligations.GuardPointsAgreeOnFullMessage := by
  unfold Obligations.GuardPointsAgreeOnFullMessage
  intro s as rest index color hidle hinput hbytes hindex hcolor hI hhex
  have hmessage : ∀ p : Params, runSteps 11 { s with params := p } =
      .next { pixelMessageOutcome as rest (BitVec.ofNat 16 (fieldValue index)) (BitVec.ofNat 32 (fieldValue color)) s with
        params := p } := by
    intro p
    rw [← pixelMessageOutcome_params]
    exact runSteps_pixelMessage (s := { s with params := p }) hidle hinput hbytes hindex hcolor hI hhex
  exact ⟨_, hmessage _, hmessage _⟩

/-! ### Two latches -/

/-- In `IdleB` the byte `'L'` latches and leaves the parser idle (R92). -/
theorem feedByte_latch {s : State} (h : IdleB s) : feedByte byteL s = .next (latch s) := by
  have hneutral : Neutral (latch s) := by
    rw [latch_eq]
    exact h.2
  rw [feedByte_topLevel h.2.1, h.1]
  change Host.Outcome.next (parserReset (latch s)) = _
  rw [parserReset_of_neutral hneutral]

/-- Settles O56: the second latch is measured from the clock value that the first one recorded. -/
theorem secondLatchTooSoonRefused : Obligations.SecondLatchTooSoonRefused := by
  unfold Obligations.SecondLatchTooSoonRefused
  intro s now1 now2 rest hidle hinput hfirst hsecond
  have hallowed : latchAllowed (fed [⟨byteL, now1⟩] (⟨byteL, now2⟩ :: rest) s) = true := (latchAllowed_iff_toNat _).2 hfirst
  have hlatch := latch_of_allowed hallowed
  have hidle' : IdleB (latch (fed [⟨byteL, now1⟩] (⟨byteL, now2⟩ :: rest) s)) := by
    rw [hlatch]
    exact hidle
  have hinput' : (latch (fed [⟨byteL, now1⟩] (⟨byteL, now2⟩ :: rest) s)).input = ⟨byteL, now2⟩ :: rest := by
    rw [hlatch]
    rfl
  rw [runSteps_succ_of_feedByte 1 hinput (feedByte_latch hidle),
    runSteps_succ_of_feedByte 0 hinput' (feedByte_latch hidle'), hlatch, latch_of_refused, runSteps_zero]
  · have hevents : s.events ++ [Event.showFrame] ++ [.diag .elt] = s.events ++ [.showFrame, .diag .elt] :=
      List.append_assoc ..
    rw [← hevents]
    rfl
  · rw [latchAllowed_iff_toNat, Nat.not_lt]
    exact hsecond

end Sys2Proof.Proofs
end
